-- ==== Sys2Proof/Word.lean ====
section
/-! DEFINITION. The byte, the 32-bit bus word and the byte sequence (00_scope R13 to R15). -/

namespace Sys2Proof

/-- A byte, bit 7 most significant (R14). -/
abbrev Byte := BitVec 8

/-- A 32-bit register, command word or bus word (R13, R14). -/
abbrev Word := BitVec 32

/-- A byte sequence, byte 0 first (R15). -/
abbrev Bytes := List Byte

/-- `A xor B` of two sequences of equal length (R15). -/
def xorBytes (a b : Bytes) : Bytes := List.zipWith (· ^^^ ·) a b

end Sys2Proof
end

