-- ==== Sys2Proof/Syntax.lean ====
section
/-! DEFINITION. The commands: one constructor per row of spec/opcode_table.json (30_encoding R158). -/

namespace Sys2Proof

/-- MODE (30_encoding R152): 0 = ECB, 1 = CBC. -/
inductive Mode where
  | ecb
  | cbc
deriving DecidableEq, Repr

/-- A padding scheme (44_padding R400): codes 0 to 4 in this order. -/
inductive Scheme where
  | zero
  | none
  | pkcs7
  | ansix923
  | iso10126
deriving DecidableEq, Repr

/-- A decoded command with its fields (R151 to R155). KLEN and BS are byte counts, ROUND an index; they are Nat, and
`Instr.WellFormed` says which values a command word can hold. -/
inductive Instr where
  /-- NOP, format N, OP 0x00 (R450). -/
  | nop
  /-- CONSTRUCT, format K, OP 0x01 (R452). -/
  | construct (mode : Mode) (scheme : Scheme) (klen : Nat)
  /-- ZEROIZE, format N, OP 0x02 (R456). -/
  | zeroize
  /-- KEY_EXPAND, format B, OP 0x10 (R265). -/
  | keyExpand (bs : Nat)
  /-- ENC_BLOCK, format B, OP 0x11 (R330). -/
  | encBlock (bs : Nat)
  /-- DEC_BLOCK, format B, OP 0x12 (R332). -/
  | decBlock (bs : Nat)
  /-- SUB_BYTES, format B, OP 0x20 (R320). -/
  | subBytes (bs : Nat)
  /-- INV_SUB_BYTES, format B, OP 0x21 (R321). -/
  | invSubBytes (bs : Nat)
  /-- SHIFT_ROWS, format B, OP 0x22 (R322). -/
  | shiftRows (bs : Nat)
  /-- INV_SHIFT_ROWS, format B, OP 0x23 (R323). -/
  | invShiftRows (bs : Nat)
  /-- MIX_COLUMNS, format B, OP 0x24 (R324). -/
  | mixColumns (bs : Nat)
  /-- INV_MIX_COLUMNS, format B, OP 0x25 (R325). -/
  | invMixColumns (bs : Nat)
  /-- ADD_ROUND_KEY, format R, OP 0x26 (R326). -/
  | addRoundKey (bs : Nat) (round : Nat)
  /-- ENCRYPT, format B, OP 0x30 (R360). -/
  | encrypt (bs : Nat)
  /-- DECRYPT, format B, OP 0x31 (R362). -/
  | decrypt (bs : Nat)
  /-- PAD, format P, OP 0x40 (R420). -/
  | pad (scheme : Scheme) (bs : Nat)
  /-- UNPAD, format P, OP 0x41 (R422). -/
  | unpad (scheme : Scheme) (bs : Nat)
deriving DecidableEq, Repr

/-- The opcode of a command (R158). -/
def Instr.opcode : Instr → Byte
  | .nop => 0x00
  | .construct _ _ _ => 0x01
  | .zeroize => 0x02
  | .keyExpand _ => 0x10
  | .encBlock _ => 0x11
  | .decBlock _ => 0x12
  | .subBytes _ => 0x20
  | .invSubBytes _ => 0x21
  | .shiftRows _ => 0x22
  | .invShiftRows _ => 0x23
  | .mixColumns _ => 0x24
  | .invMixColumns _ => 0x25
  | .addRoundKey _ _ => 0x26
  | .encrypt _ => 0x30
  | .decrypt _ => 0x31
  | .pad _ _ => 0x40
  | .unpad _ _ => 0x41

/-- The block-size field of a command that has one (formats B, R, P; 60_exceptions R502). -/
def Instr.blockSize? : Instr → Option Nat
  | .nop => Option.none
  | .construct _ _ _ => Option.none
  | .zeroize => Option.none
  | .keyExpand bs => some bs
  | .encBlock bs => some bs
  | .decBlock bs => some bs
  | .subBytes bs => some bs
  | .invSubBytes bs => some bs
  | .shiftRows bs => some bs
  | .invShiftRows bs => some bs
  | .mixColumns bs => some bs
  | .invMixColumns bs => some bs
  | .addRoundKey bs _ => some bs
  | .encrypt bs => some bs
  | .decrypt bs => some bs
  | .pad _ bs => some bs
  | .unpad _ bs => some bs

end Sys2Proof
end

