-- ==== Sys2Proof/WellFormed.lean ====
section
/-! DEFINITION. Which commands a 32-bit command word can hold: BS and KLEN have 8 bits, ROUND has 4 (30_encoding R152 to
R155). A well-formed command may still carry an illegal size; that is an error of the command, not of its encoding (R160). -/

namespace Sys2Proof

/-- The command's fields fit the bits of its format. -/
def Instr.wellFormed : Instr → Bool
  | .nop => true
  | .construct _ _ klen => decide (klen < 256)
  | .zeroize => true
  | .keyExpand bs => decide (bs < 256)
  | .encBlock bs => decide (bs < 256)
  | .decBlock bs => decide (bs < 256)
  | .subBytes bs => decide (bs < 256)
  | .invSubBytes bs => decide (bs < 256)
  | .shiftRows bs => decide (bs < 256)
  | .invShiftRows bs => decide (bs < 256)
  | .mixColumns bs => decide (bs < 256)
  | .invMixColumns bs => decide (bs < 256)
  | .addRoundKey bs round => decide (bs < 256) && decide (round < 16)
  | .encrypt bs => decide (bs < 256)
  | .decrypt bs => decide (bs < 256)
  | .pad _ bs => decide (bs < 256)
  | .unpad _ bs => decide (bs < 256)

/-- `Instr.wellFormed` as a proposition. -/
abbrev Instr.WellFormed (i : Instr) : Prop := i.wellFormed = true

end Sys2Proof
end

