-- ==== Sys2Proof/Decode.lean ====
section
/-! DEFINITION. The decoder of 30_encoding R159, total on every 32-bit word and rejecting by name, and the encoder written
from the same formats (R151 to R155). A rejected word is no refusal of the machine: it completes with IllegalCommand (R507). -/

namespace Sys2Proof

/-- Why a word is illegal (30_encoding R160). -/
inductive DecodeError where
  /-- OP is one of the 239 unassigned values. -/
  | unassignedOpcode
  /-- a must-be-0 bit of the format is 1. -/
  | reservedBits
  /-- PAD or SCHEME is 5, 6 or 7. -/
  | reservedScheme
deriving DecidableEq, Repr

/-- Bits `lo + n - 1 .. lo` of a command word, unsigned (R156). -/
def field (w : Word) (lo n : Nat) : Nat := (w.extractLsb' lo n).toNat

/-- The scheme of a PAD or SCHEME code (R152, R155). -/
def Scheme.ofCode? : Nat → Option Scheme
  | 0 => some .zero
  | 1 => some .none
  | 2 => some .pkcs7
  | 3 => some .ansix923
  | 4 => some .iso10126
  | _ => Option.none

/-- The code of a scheme (R152, R155, 44_padding R400). -/
def Scheme.code : Scheme → BitVec 3
  | .zero => 0
  | .none => 1
  | .pkcs7 => 2
  | .ansix923 => 3
  | .iso10126 => 4

/-- The mode of a MODE bit (R152). -/
def Mode.ofBit (b : Nat) : Mode := if b = 0 then .ecb else .cbc

/-- The code of a mode (R152). -/
def Mode.bit : Mode → BitVec 1
  | .ecb => 0
  | .cbc => 1

/-- Format N (R151): bits 31:8 must be 0. -/
def decodeN (w : Word) (i : Instr) : Except DecodeError Instr :=
  if field w 8 24 = 0 then .ok i else .error .reservedBits

/-- Format K (R152): bits 15:12 and 31:24 must be 0, PAD at most 4. -/
def decodeK (w : Word) : Except DecodeError Instr :=
  if field w 12 4 = 0 ∧ field w 24 8 = 0 then
    match Scheme.ofCode? (field w 9 3) with
    | some p => .ok (.construct (Mode.ofBit (field w 8 1)) p (field w 16 8))
    | Option.none => .error .reservedScheme
  else .error .reservedBits

/-- Format B (R153): bits 31:16 must be 0. -/
def decodeB (w : Word) (mk : Nat → Instr) : Except DecodeError Instr :=
  if field w 16 16 = 0 then .ok (mk (field w 8 8)) else .error .reservedBits

/-- Format R (R154): bits 31:20 must be 0. -/
def decodeR (w : Word) : Except DecodeError Instr :=
  if field w 20 12 = 0 then .ok (.addRoundKey (field w 8 8) (field w 16 4)) else .error .reservedBits

/-- Format P (R155): bits 31:19 must be 0, SCHEME at most 4. -/
def decodeP (w : Word) (mk : Scheme → Nat → Instr) : Except DecodeError Instr :=
  if field w 19 13 = 0 then
    match Scheme.ofCode? (field w 16 3) with
    | some p => .ok (mk p (field w 8 8))
    | Option.none => .error .reservedScheme
  else .error .reservedBits

/-- The decoder (R159): the format is selected from OP alone (R150). -/
def decode (w : Word) : Except DecodeError Instr :=
  match field w 0 8 with
  | 0x00 => decodeN w .nop
  | 0x01 => decodeK w
  | 0x02 => decodeN w .zeroize
  | 0x10 => decodeB w .keyExpand
  | 0x11 => decodeB w .encBlock
  | 0x12 => decodeB w .decBlock
  | 0x20 => decodeB w .subBytes
  | 0x21 => decodeB w .invSubBytes
  | 0x22 => decodeB w .shiftRows
  | 0x23 => decodeB w .invShiftRows
  | 0x24 => decodeB w .mixColumns
  | 0x25 => decodeB w .invMixColumns
  | 0x26 => decodeR w
  | 0x30 => decodeB w .encrypt
  | 0x31 => decodeB w .decrypt
  | 0x40 => decodeP w .pad
  | 0x41 => decodeP w .unpad
  | _ => .error .unassignedOpcode

/-- Format N, most significant field first (R151). -/
def encodeN (op : Byte) : Word := (0 : BitVec 24) ++ op

/-- Format K (R152): `00000000 KKKKKKKK 0000 PPP M OP`. -/
def encodeK (op : Byte) (mode : Mode) (p : Scheme) (klen : Nat) : Word :=
  (0 : BitVec 8) ++ BitVec.ofNat 8 klen ++ (0 : BitVec 4) ++ p.code ++ mode.bit ++ op

/-- Format B (R153): `0000000000000000 BBBBBBBB OP`. -/
def encodeB (op : Byte) (bs : Nat) : Word := (0 : BitVec 16) ++ BitVec.ofNat 8 bs ++ op

/-- Format R (R154): `000000000000 RRRR BBBBBBBB OP`. -/
def encodeR (op : Byte) (bs round : Nat) : Word :=
  (0 : BitVec 12) ++ BitVec.ofNat 4 round ++ BitVec.ofNat 8 bs ++ op

/-- Format P (R155): `0000000000000 SSS BBBBBBBB OP`. -/
def encodeP (op : Byte) (p : Scheme) (bs : Nat) : Word :=
  (0 : BitVec 13) ++ p.code ++ BitVec.ofNat 8 bs ++ op

/-- The word of a command (R158, R162). -/
def encode : Instr → Word
  | .nop => encodeN 0x00
  | .construct m p k => encodeK 0x01 m p k
  | .zeroize => encodeN 0x02
  | .keyExpand bs => encodeB 0x10 bs
  | .encBlock bs => encodeB 0x11 bs
  | .decBlock bs => encodeB 0x12 bs
  | .subBytes bs => encodeB 0x20 bs
  | .invSubBytes bs => encodeB 0x21 bs
  | .shiftRows bs => encodeB 0x22 bs
  | .invShiftRows bs => encodeB 0x23 bs
  | .mixColumns bs => encodeB 0x24 bs
  | .invMixColumns bs => encodeB 0x25 bs
  | .addRoundKey bs r => encodeR 0x26 bs r
  | .encrypt bs => encodeB 0x30 bs
  | .decrypt bs => encodeB 0x31 bs
  | .pad p bs => encodeP 0x40 p bs
  | .unpad p bs => encodeP 0x41 p bs

/-- The command word whose bits are `w`, numbered as spec/opcode_table.json numbers them; the bits from `nbits` on are 0. -/
def tableWord (nbits w : Nat) : Word := BitVec.ofNat 32 (w % 2 ^ nbits)

/-- The command the decoder reads from that word. -/
def decodeTableWord (nbits w : Nat) : Option Instr := (decode (tableWord nbits w)).toOption

end Sys2Proof
end

