-- ==== Sys2Proof/Config.lean ====
section
/-! DEFINITION. What one built block fixes (the parameters of 00_scope R11) and the free values the spec leaves open
(93_implementation_defined U1 to U5). A free value is an opaque constant: nothing can be proved of its value. -/

namespace Sys2Proof.Config

/-- The ID register's constant, ASCII "RJ" and revision 7 (10_state R66). -/
def idValue : Word := 0x524A0007

/-- The default of the parameter IN_CAP (00_scope R11). The model holds the parameter in State.inCap. -/
def inCapDefault : Nat := 4096

/-- The least and the greatest IN_CAP the spec allows (00_scope R11). -/
def inCapMin : Nat := 32
def inCapMax : Nat := 65504

/-- FREE VALUE (log 10): which 2^18-byte slot of the bus the block stands in; BASE is OPEN (00_scope R11, R102). -/
opaque baseSlot : Nat

/-- BASE, 2^18-aligned by construction (00_scope R11). -/
def base : Nat := baseSlot * 2 ^ 18

/-- FREE VALUE (log 1): the draw made at reset number `reset` for the buffer byte at window offset `off`
(10_state R80, 93 U1). -/
opaque resetByte (reset off : Nat) : Byte

/-- FREE VALUE (log 2): the draw made at reset number `reset` for byte `i` of CKEY (10_state R80, 93 U1). -/
opaque resetKeyByte (reset i : Nat) : Byte

/-- FREE VALUE (log 3): the `n`-th byte drawn by host reads in the busy window (10_state R85, 93 U2). -/
opaque busyByte (n : Nat) : Byte

/-- FREE VALUE (log 4): the `n`-th byte taken from the random-byte port (44_padding R415, 93 U3). -/
opaque rngByte (n : Nat) : Byte

/-- FREE VALUE (log 5): LATENCY of the `n`-th issued command, a finite number of host steps (00_scope R11, 93 U4).
DESIGN CHOICE: it is indexed by the number of the issue alone. The spec lets it depend on the command, the data and the key as
well (70 R570); here two issues of the same number have the same LATENCY whatever these are (log 5). -/
opaque latency (n : Nat) : Nat

end Sys2Proof.Config
end

