-- ==== Sys2Proof/Machine/State.lean ====
section
/-! DEFINITION. The state of the block as plain data (10_state R50 to R85), its ports (20_memory R100), the reasons a step
can stop, and the state right after reset (10_state R80, 70 R551). -/

namespace Sys2Proof.Machine

/-- The error codes of ERRCODE[3:0] (60_exceptions R500). Codes 9 to 15 are never produced and have no constructor. -/
inductive ErrCode where
  /-- code 0 -/
  | ok
  /-- code 1 -/
  | invalidKeySize
  /-- code 2 -/
  | invalidBlockSize
  /-- code 3 -/
  | invalidIVLength
  /-- code 4 -/
  | unalignedInput
  /-- code 5 -/
  | invalidPadding
  /-- code 6 -/
  | illegalCommand
  /-- code 7 -/
  | lengthOverflow
  /-- code 8 -/
  | noSchedule
deriving DecidableEq, Repr

/-- The command sequencer (10_state R71): IDLE is BUSY = 0, EXECUTING is BUSY = 1. -/
inductive Seq where
  /-- BUSY = 0; PCMD holds no command. -/
  | idle
  /-- BUSY = 1; PCMD is the issued word, and `remaining` host steps pass before the completion step (log 5). -/
  | executing (pcmd : Word) (remaining : Nat)
deriving DecidableEq, Repr

/-- What a byte of `Memory` that no cell lists reads as: the draw made for it at a reset (10_state R80, log 1), or 0 since a
ZEROIZE (45_control R456). -/
inductive Fill where
  | drawn (reset : Nat)
  | zeroed
deriving DecidableEq, Repr

/-- The byte buffers KEY, IV, STATE, CHAIN, RK, IN and OUT at their window offsets (20_memory R101): the bytes written since
the last reset or ZEROIZE, in the canonical form of `Memory.wf`, over the fill. -/
structure Memory where
  fill : Fill
  cells : List Host.Cell
deriving DecidableEq, Repr

/-- A request on the bus port (20_memory R100): an 18-bit window offset, a write flag, a size in bytes, write data. -/
structure BusRequest where
  off : BitVec 18
  write : Bool
  size : Nat
  wdata : Word
deriving DecidableEq, Repr

/-- The response on the bus port (20_memory R100). -/
inductive Response where
  /-- a permitted read: error = 0 and the read data. -/
  | data (rdata : Word)
  /-- a permitted write: error = 0; the spec states no rdata (log 8). -/
  | ack
  /-- a bus error: error = 1 and rdata = 0 (R107). -/
  | busError
deriving DecidableEq, Repr

/-- What the outside does to the block's inputs in one host step: a bus access, or an edge of `rst` (log 6, 7). -/
inductive HostEvent where
  | access (req : BusRequest)
  | rstRise
  | rstFall
deriving DecidableEq, Repr

/-- Why the machine stops with a fault. -/
inductive Fault where
  /-- Raised by `heldInReset` alone: the host places a bus access while rst = 1, which it must not do and which is no host
  step of a model (70 R550). No command raises it. Safe: the model stops (log 7). -/
  | accessInReset
deriving DecidableEq, Repr

/-- Why an instruction has no meaning. -/
inductive Refusal where
  /-- Raised by an arm of `exec` whose instruction has no meaning yet; no arm is left so. Safe: the model stops. -/
  | notModelled (mnemonic : String)
deriving DecidableEq, Repr

/-- The block. Every field is named in INVENTORY.md with its rule and reset value. ID and ROM are constants, ERR, irq and the
register words are derived, and CMD stores nothing (10_state R60). -/
structure State where
  /-- KEY, IV, STATE, CHAIN, RK, IN, OUT (10_state R62 to R70). -/
  mem : Memory
  /-- CKEY, the constructed cipher's key (10_state R63). -/
  ckey : Vector Byte 32
  /-- the sequencer, BUSY and PCMD (10_state R71). -/
  seq : Seq
  /-- STATUS[1] (10_state R51). -/
  done : Bool
  /-- STATUS[3] (10_state R51, R85). -/
  ovr : Bool
  /-- STATUS[4], a cipher has been constructed (10_state R61). -/
  cfgValid : Bool
  /-- STATUS[5], RK holds a complete schedule (10_state R61). -/
  rkValid : Bool
  /-- ERRCODE (10_state R52). -/
  errcode : ErrCode
  /-- CFG.MODE, CFG.PAD, CFG.KLEN (10_state R53). -/
  cfgMode : Mode
  cfgPad : Scheme
  cfgKlen : Byte
  /-- CTRL.IE (10_state R54). -/
  ie : Bool
  /-- IN_LEN, OUT_LEN, IV_LEN (10_state R55 to R57). -/
  inLen : Word
  outLen : Word
  ivLen : Byte
  /-- RK_INFO.RK_BS, RK_INFO.RK_NR (10_state R58). -/
  rkBs : Byte
  rkNr : BitVec 4
  /-- the parameter IN_CAP, which CAP reads (10_state R59, log 9); nothing writes it. -/
  inCap : Nat
  /-- the input rst (20_memory R100, log 7). -/
  rst : Bool
  /-- the model's own: the host events still to come, first one first (log 6). -/
  host : List HostEvent
  /-- the last response on the bus port (20_memory R100, log 8). -/
  resp : Option Response
  /-- the model's own: how many commands were issued, resets made, busy-window bytes and random bytes drawn (log 14). -/
  issues : Nat
  resets : Nat
  busyDraws : Nat
  rngDraws : Nat
deriving DecidableEq, Repr

/-- CKEY at reset number `n`: one draw per byte (10_state R80, log 2). -/
def drawnKey (n : Nat) : Vector Byte 32 := Vector.ofFn fun i : Fin 32 => Config.resetKeyByte n i.val

/-- Right after reset (10_state R80, 70 R551): IDLE, every register and flag 0, CAP = IN_CAP, every buffer byte at its draw,
rst low; no host event is waiting and none of the model's counters has moved (log 14). -/
def State.reset : State where
  mem := { fill := .drawn 0, cells := [] }
  ckey := drawnKey 0
  seq := .idle
  done := false
  ovr := false
  cfgValid := false
  rkValid := false
  errcode := .ok
  cfgMode := .ecb
  cfgPad := .zero
  cfgKlen := 0
  ie := false
  inLen := 0
  outLen := 0
  ivLen := 0
  rkBs := 0
  rkNr := 0
  inCap := Config.inCapDefault
  rst := false
  host := []
  resp := Option.none
  issues := 0
  resets := 0
  busyDraws := 0
  rngDraws := 0

end Sys2Proof.Machine
end

