-- ==== Sys2Proof/Machine/Ops.lean ====
section
/-! DEFINITION. The named operations over memory and registers: the buffers' offsets (20_memory R101), byte reads and writes
of the canonical memory, byte lanes (R104), issue, completion and error completion (60_exceptions R520 to R522), the updates
of the cipher slot and the schedule registers, and reset (70 R550). -/

namespace Sys2Proof.Machine

/-- What a command or a step answers. -/
abbrev Result := Host.Outcome State Fault Refusal

/-! ## Offsets and capacities of the buffers (20_memory R101, 10_state R62 to R70) -/

def keyBase : Nat := 0x100
def ivBase : Nat := 0x120
def stateBase : Nat := 0x140
def chainBase : Nat := 0x160
def rkBase : Nat := 0x200
def romBase : Nat := 0x1000
def inBase : Nat := 0x10000
def outBase : Nat := 0x20000

/-- Size of KEY, IV, STATE, CHAIN and of RK (00_scope R12). -/
def blockCap : Nat := 32
def rkCap : Nat := 480

/-- OUT_CAP = IN_CAP + 32 (00_scope R11). -/
def State.outCap (s : State) : Nat := s.inCap + 32

/-! ## Memory -/

/-- The byte a list of cells holds at an address. -/
def lookupCell : List Host.Cell → Nat → Option Byte
  | [], _ => Option.none
  | (b, v) :: cs, a => if b = a then some v else lookupCell cs a

/-- Put a byte at an address, keeping the addresses rising. -/
def insertCell (a : Nat) (v : Byte) : List Host.Cell → List Host.Cell
  | [] => [(a, v)]
  | (b, w) :: cs => if a < b then (a, v) :: (b, w) :: cs else if a = b then (a, v) :: cs else (b, w) :: insertCell a v cs

/-- Remove every cell of an address. -/
def eraseCell (a : Nat) : List Host.Cell → List Host.Cell
  | [] => []
  | (b, w) :: cs => if b = a then eraseCell a cs else (b, w) :: eraseCell a cs

/-- THE ONE DEFINITION of what an unlisted byte reads as: its reset draw, stable until written, or 0 since a ZEROIZE
(10_state R80, 45_control R456, log 1). -/
def Memory.unlisted (m : Memory) (a : Nat) : Byte :=
  match m.fill with
  | .drawn n => Config.resetByte n a
  | .zeroed => 0

/-- Read one buffer byte. -/
def Memory.read (m : Memory) (a : Nat) : Byte := (lookupCell m.cells a).getD (m.unlisted a)

/-- Write one buffer byte; writing the value an unlisted byte reads as removes the cell. -/
def Memory.write (m : Memory) (a : Nat) (v : Byte) : Memory :=
  if v = m.unlisted a then { m with cells := eraseCell a m.cells } else { m with cells := insertCell a v m.cells }

/-- Read `n` bytes from `a` up. -/
def Memory.readBytes (m : Memory) (a n : Nat) : Bytes := (List.range n).map fun k => m.read (a + k)

/-- Write the bytes of a sequence from `a` up. -/
def Memory.writeBytes (m : Memory) (a : Nat) : Bytes → Memory
  | [] => m
  | b :: bs => (m.write a b).writeBytes (a + 1) bs

/-- Every buffer byte 0 (45_control R456). -/
def Memory.zeroed : Memory := { fill := .zeroed, cells := [] }

/-- The addresses of a list of cells rise strictly, and all lie above the bound if there is one. -/
def risingAbove : Option Nat → List Host.Cell → Bool
  | _, [] => true
  | Option.none, (a, _) :: cs => risingAbove (some a) cs
  | some b, (a, _) :: cs => decide (b < a) && risingAbove (some a) cs

/-- The canonical form: addresses strictly rising, no cell equal to what an unlisted byte reads as. -/
def Memory.wf (m : Memory) : Bool :=
  risingAbove Option.none m.cells && m.cells.all fun c => decide (c.2 ≠ m.unlisted c.1)

/-- `a` is the offset of a byte of some buffer, for a given IN_CAP (20_memory R101). -/
def isBufferOffset (inCap a : Nat) : Bool :=
  decide (keyBase ≤ a ∧ a < chainBase + blockCap) || decide (rkBase ≤ a ∧ a < rkBase + rkCap) ||
    decide (inBase ≤ a ∧ a < inBase + inCap) || decide (outBase ≤ a ∧ a < outBase + (inCap + 32))

/-- Only buffer bytes are listed. -/
def Memory.inBuffers (m : Memory) (inCap : Nat) : Bool := m.cells.all fun c => isBufferOffset inCap c.1

/-! ## Byte lanes (20_memory R104) -/

/-- Bytes into a 32-bit word, first byte in bits 7:0. -/
def leWord : Bytes → Word
  | [] => 0
  | b :: bs => b.setWidth 32 ||| (leWord bs <<< 8)

/-- Byte lane `k` of a word, bits 8k+7 : 8k. -/
def laneByte (v : Word) (k : Nat) : Byte := v.extractLsb' (8 * k) 8

/-- The first `n` byte lanes of a word. -/
def laneBytes (v : Word) (n : Nat) : Bytes := (List.range n).map (laneByte v)

/-! ## Updates of the state -/

/-- Replace the buffers. -/
def State.setMem (s : State) (m : Memory) : State := { s with mem := m }

/-- OUT_LEN <- n (10_state R56). -/
def State.setOutLen (s : State) (n : Nat) : State := { s with outLen := BitVec.ofNat 32 n }

/-- RK_INFO.RK_BS <- bs, RK_INFO.RK_NR <- nr, RK_VALID <- 1 (41 R265). -/
def State.setSchedule (s : State) (bs nr : Nat) : State :=
  { s with rkBs := BitVec.ofNat 8 bs, rkNr := BitVec.ofNat 4 nr, rkValid := true }

/-- RK_VALID <- 0, RK_INFO <- 0 (45_control R452, R456). -/
def State.clearSchedule (s : State) : State := { s with rkBs := 0, rkNr := 0, rkValid := false }

/-- Fill the cipher slot: CKEY, CFG, CFG_VALID <- 1 (45_control R449, R452). -/
def State.setSlot (s : State) (key : Vector Byte 32) (mode : Mode) (p : Scheme) (klen : Nat) : State :=
  { s with ckey := key, cfgMode := mode, cfgPad := p, cfgKlen := BitVec.ofNat 8 klen, cfgValid := true }

/-- Empty the cipher slot: CFG <- 0, CFG_VALID <- 0; CKEY keeps its bytes (45_control R452). -/
def State.clearSlot (s : State) : State :=
  { s with cfgMode := .ecb, cfgPad := .zero, cfgKlen := 0, cfgValid := false }

/-- The random-byte port has given `n` more bytes (44_padding R415). -/
def State.drawRng (s : State) (n : Nat) : State := { s with rngDraws := s.rngDraws + n }

/-- Answer a bus request (20_memory R100). -/
def State.respond (s : State) (r : Response) : State := { s with resp := some r }

/-! ## Issue and completion (60_exceptions R520 to R522) -/

/-- Issue (R520): PCMD <- w, BUSY <- 1, DONE <- 0, ERRCODE <- 0; LATENCY is drawn, DESIGN CHOICE by the number of
the issue alone and not by the command, the data or the key, on which 70 R570 lets it depend as well (log 5). -/
def State.issue (s : State) (w : Word) : State :=
  { s with seq := .executing w (Config.latency s.issues), issues := s.issues + 1, done := false, errcode := .ok }

/-- The completion bookkeeping (R521): BUSY <- 0, DONE <- 1, ERRCODE <- code. PCMD holds no command any more (log 13). -/
def State.complete (s : State) (code : ErrCode) : State := { s with seq := .idle, done := true, errcode := code }

/-- `finish()`: the command ends with no error (00_scope R16). -/
def finish (s : State) : Result := .next (s.complete .ok)

/-- `raise Err(code)`: the ONE way a command ends with an error (R521, R522): OUT_LEN <- 0 and the bookkeeping, nothing else
of `s`. Nothing is saved and nothing returns: the block has no traps (R524, R525). -/
def raise (code : ErrCode) (s : State) : Result := .next ((s.setOutLen 0).complete code)

/-! ## Reset (70 R550, 10_state R80) -/

/-- rst rises: every register, flag and the sequencer take their reset values, every buffer byte is drawn again, a command in
flight is lost (R553). The parameter IN_CAP, the host's events and the draw counters go on. -/
def State.resetNow (s : State) : State :=
  { State.reset with
    mem := { fill := .drawn (s.resets + 1), cells := [] }
    ckey := drawnKey (s.resets + 1)
    inCap := s.inCap
    rst := true
    host := s.host
    issues := s.issues
    resets := s.resets + 1
    busyDraws := s.busyDraws
    rngDraws := s.rngDraws }

end Sys2Proof.Machine
end

