-- ==== Sys2Proof/Machine/Flags.lean ====
section
/-! DEFINITION. The flags and the control and status registers as words (10_state R51 to R59), the interrupt line (60 R530)
and the effect of a host write to STATUS and CTRL. -/

namespace Sys2Proof.Machine

/-- The numeric value of an error code (60_exceptions R500). -/
def ErrCode.code : ErrCode → Nat
  | .ok => 0
  | .invalidKeySize => 1
  | .invalidBlockSize => 2
  | .invalidIVLength => 3
  | .unalignedInput => 4
  | .invalidPadding => 5
  | .illegalCommand => 6
  | .lengthOverflow => 7
  | .noSchedule => 8

/-- STATUS[0], BUSY (10_state R51, R71). -/
def State.busy (s : State) : Bool :=
  match s.seq with
  | .idle => false
  | .executing _ _ => true

/-- STATUS[2], ERR: 1 iff ERRCODE ≠ 0 (10_state R51). -/
def State.err (s : State) : Bool := decide (s.errcode ≠ .ok)

/-- The interrupt output: irq = STATUS.DONE and CTRL.IE (60 R530). -/
def State.irq (s : State) : Bool := s.done && s.ie

/-- STATUS (10_state R51), bit 5 first down to bit 0; bits 31:6 read 0. -/
def State.statusWord (s : State) : Word :=
  (0 : BitVec 26) ++ BitVec.ofBool s.rkValid ++ BitVec.ofBool s.cfgValid ++ BitVec.ofBool s.ovr ++ BitVec.ofBool s.err ++
    BitVec.ofBool s.done ++ BitVec.ofBool s.busy

/-- ERRCODE (10_state R52). -/
def State.errcodeWord (s : State) : Word := BitVec.ofNat 32 s.errcode.code

/-- CFG (10_state R53): KLEN in 15:8, PAD in 3:1, MODE in 0. -/
def State.cfgWord (s : State) : Word :=
  (0 : BitVec 16) ++ s.cfgKlen ++ (0 : BitVec 4) ++ s.cfgPad.code ++ s.cfgMode.bit

/-- CTRL (10_state R54). -/
def State.ctrlWord (s : State) : Word := (0 : BitVec 31) ++ BitVec.ofBool s.ie

/-- IV_LEN (10_state R57). -/
def State.ivLenWord (s : State) : Word := (0 : BitVec 24) ++ s.ivLen

/-- RK_INFO (10_state R58). -/
def State.rkInfoWord (s : State) : Word := (0 : BitVec 20) ++ s.rkNr ++ s.rkBs

/-- CAP (10_state R59). -/
def State.capWord (s : State) : Word := BitVec.ofNat 32 s.inCap

/-- A host write to STATUS: write 1 to clear DONE (bit 1) and OVR (bit 3) (10_state R51). -/
def State.writeStatus (s : State) (v : Word) : State :=
  { s with done := s.done && !v.getLsbD 1, ovr := s.ovr && !v.getLsbD 3 }

/-- A host write to CTRL: IE <- v[0] (10_state R54). -/
def State.writeCtrl (s : State) (v : Word) : State := { s with ie := v.getLsbD 0 }

/-- A host write dropped because BUSY = 1 (10_state R85). -/
def State.setOvr (s : State) : State := { s with ovr := true }

end Sys2Proof.Machine
end

