-- ==== Sys2Proof/Machine/Operands.lean ====
section
/-! DEFINITION. Every operand form a command reads (10_state R72) and the conditions its checks test (60_exceptions R501 to
R508). A command reads its operands as they are at its completion step (20_memory R116). -/

namespace Sys2Proof.Machine

/-- A legal key or block size in bytes (00_scope R10). -/
abbrev LegalSize (n : Nat) : Prop := n = 16 ∨ n = 24 ∨ n = 32

/-- KEY[0..32) byte `i` (10_state R62). -/
def State.keyByte (s : State) (i : Nat) : Byte := s.mem.read (keyBase + i)

/-- CKEY byte `i` (10_state R63). -/
def State.ckeyByte (s : State) (i : Nat) : Byte := s.ckey[i]?.getD 0

/-- CKEY[0..CFG.KLEN), the constructed key (41 R265). -/
def State.cipherKey (s : State) : Bytes := (List.range s.cfgKlen.toNat).map s.ckeyByte

/-- CKEY after CKEY[0..klen) <- KEY[0..klen); the bytes above keep their values (45_control R452). -/
def State.latchedKey (s : State) (klen : Nat) : Vector Byte 32 :=
  Vector.ofFn fun i : Fin 32 => if i.val < klen then s.keyByte i.val else s.ckeyByte i.val

/-- IV[0..bs) (10_state R64). -/
def State.ivBytes (s : State) (bs : Nat) : Bytes := s.mem.readBytes ivBase bs

/-- STATE[0..bs) (10_state R65). -/
def State.stateBytes (s : State) (bs : Nat) : Bytes := s.mem.readBytes stateBase bs

/-- IN[0..IN_LEN) (10_state R55, R69). -/
def State.inData (s : State) : Bytes := s.mem.readBytes inBase s.inLen.toNat

/-- Round key `r` for block size `bs`: RK[r × bs .. (r+1) × bs) (10_state R67, 42 R310). -/
def State.roundKey (s : State) (bs r : Nat) : Bytes := s.mem.readBytes (rkBase + r * bs) bs

/-- The random-byte port's next bytes, `k = 0` first (44_padding R415, log 4). -/
def State.filler (s : State) (k : Nat) : Byte := Config.rngByte (s.rngDraws + k)

/-- STATE[0..len(S)) <- S (10_state R65). -/
def State.storeState (s : State) (b : Bytes) : State := s.setMem (s.mem.writeBytes stateBase b)

/-- RK[0..len(W)) <- W, RK_INFO and RK_VALID (41 R265). -/
def State.storeSchedule (s : State) (w : Bytes) (bs nr : Nat) : State :=
  (s.setMem (s.mem.writeBytes rkBase w)).setSchedule bs nr

/-- OUT[0..len(R)) <- R, OUT_LEN <- len(R) (10_state R70, R56). -/
def State.storeOut (s : State) (b : Bytes) : State :=
  (s.setMem (s.mem.writeBytes outBase b)).setOutLen b.length

/-- CHAIN[0..bs) <- last, in CBC only (10_state R68). -/
def State.storeChain (s : State) (mode : Mode) (last : Bytes) : State :=
  match mode with
  | .ecb => s
  | .cbc => s.setMem (s.mem.writeBytes chainBase last)

/-! ## Conditions of the checks -/

/-- IN_LEN > IN_CAP (60 R506). -/
abbrev State.InOverflow (s : State) : Prop := s.inCap < s.inLen.toNat

/-- CFG.MODE = CBC and IV_LEN ≠ BS (43 R352). -/
abbrev State.IvMismatch (s : State) (bs : Nat) : Prop := s.cfgMode = .cbc ∧ s.ivLen.toNat ≠ bs

/-- IN_LEN % BS ≠ 0 (60 R505). -/
abbrev State.Unaligned (s : State) (bs : Nat) : Prop := s.inLen.toNat % bs ≠ 0

/-- The schedule in RK cannot serve a command for block size `bs` that reads round keys up to `round` (42 R311, 60 R508). -/
abbrev State.NoSchedule (s : State) (bs round : Nat) : Prop :=
  s.rkValid = false ∨ s.rkBs.toNat ≠ bs ∨ s.rkNr.toNat < round

end Sys2Proof.Machine
end

