-- ==== Sys2Proof/Machine/Bus.lean ====
section
/-! DEFINITION. The host port (20_memory): the address map (R101), permitted accesses (R106), the bus error (R107), the host
read and write steps (R110, R111) with the busy window (10_state R85), and the host's events one at a time, rst among them
(70 R550, log 6, 7). -/

namespace Sys2Proof.Machine

/-- The regions of the window (R101), IN and OUT up to their capacities. -/
inductive Region where
  | registers
  | key
  | iv
  | state
  | chain
  | rk
  | rom
  | inBuf
  | outBuf
  | reserved
deriving DecidableEq, Repr

/-- The region of an offset for a given IN_CAP (R101, R108). -/
def regionOf (inCap off : Nat) : Region :=
  if off < 0x100 then .registers
  else if off < 0x120 then .key
  else if off < 0x140 then .iv
  else if off < 0x160 then .state
  else if off < 0x180 then .chain
  else if off < 0x200 then .reserved
  else if off < 0x3E0 then .rk
  else if off < 0x1000 then .reserved
  else if off < 0x1820 then .rom
  else if off < 0x10000 then .reserved
  else if off < 0x10000 + inCap then .inBuf
  else if off < 0x20000 then .reserved
  else if off < 0x20000 + (inCap + 32) then .outBuf
  else .reserved

/-- A permitted access (R106): size 1, 2 or 4, aligned, and 4 in the register page. -/
abbrev Permitted (off n : Nat) : Prop := (n = 1 ∨ n = 2 ∨ n = 4) ∧ off % n = 0 ∧ (off < 0x100 → n = 4)

/-- The offset of a bus address in the block's window, if it lies there (R101). -/
def windowOffset (addr : Nat) : Option (BitVec 18) :=
  if Config.base ≤ addr ∧ addr < Config.base + 2 ^ 18 then some (BitVec.ofNat 18 (addr - Config.base)) else Option.none

/-- A register of the register page as a word (R105, 10_state R51 to R66); CMD and the reserved offsets read 0. -/
def regWord (s : State) (off : Nat) : Word :=
  match off with
  | 0x004 => s.statusWord
  | 0x008 => s.errcodeWord
  | 0x00C => s.cfgWord
  | 0x010 => s.ctrlWord
  | 0x014 => s.inLen
  | 0x018 => s.outLen
  | 0x01C => s.ivLenWord
  | 0x020 => s.rkInfoWord
  | 0x024 => s.capWord
  | 0x028 => Config.idValue
  | _ => 0

/-- One byte as the host reads it outside the register page (R108, R110): KEY and reserved bytes read 0. -/
def hostByte (s : State) (off : Nat) : Byte :=
  match regionOf s.inCap off with
  | .registers => 0
  | .key => 0
  | .iv => s.mem.read off
  | .state => s.mem.read off
  | .chain => s.mem.read off
  | .rk => s.mem.read off
  | .rom => romByte (off - romBase)
  | .inBuf => s.mem.read off
  | .outBuf => s.mem.read off
  | .reserved => 0

/-- The data of a permitted read while it is defined (R104, R105). -/
def readValue (s : State) (off n : Nat) : Word :=
  if off < 0x100 then regWord s off else leWord ((List.range n).map fun k => hostByte s (off + k))

/-- The offsets whose reads stay defined while BUSY = 1: STATUS, CTRL, CAP, ID (10_state R85). -/
abbrev BusyReadable (off : Nat) : Prop := off = 0x004 ∨ off = 0x010 ∨ off = 0x024 ∨ off = 0x028

/-- A host read of `n` bytes (R107, R110). In the busy window each byte read is one draw (10_state R85, log 3). -/
def hostRead (s : State) (off n : Nat) : State :=
  if ¬ Permitted off n then s.respond .busError
  else if s.busy = true ∧ ¬ BusyReadable off then
    { s with
      resp := some (.data (leWord ((List.range n).map fun k => Config.busyByte (s.busyDraws + k))))
      busyDraws := s.busyDraws + n }
  else s.respond (.data (readValue s off n))

/-- The host may write this byte (R108, R111): KEY, IV, STATE and IN below IN_CAP. -/
def hostWritable (inCap off : Nat) : Bool :=
  match regionOf inCap off with
  | .registers => false
  | .key => true
  | .iv => true
  | .state => true
  | .chain => false
  | .rk => false
  | .rom => false
  | .inBuf => true
  | .outBuf => false
  | .reserved => false

/-- Write bytes from `off` up where the host may, leave the rest alone (R104, R108, log 12). -/
def hostWriteBytes (inCap : Nat) (m : Memory) (off : Nat) : Bytes → Memory
  | [] => m
  | b :: bs => hostWriteBytes inCap (if hostWritable inCap off then m.write off b else m) (off + 1) bs

/-- The effect of a permitted host write of `n` bytes of `v` (R111), in the order of the rule. -/
def writeEffect (s : State) (off n : Nat) (v : Word) : State :=
  if off = 0x004 then s.writeStatus v
  else if off = 0x010 then s.writeCtrl v
  else if s.busy = true then s.setOvr
  else if off = 0x000 then s.issue v
  else if off = 0x014 then { s with inLen := v }
  else if off = 0x01C then { s with ivLen := v.extractLsb' 0 8 }
  else s.setMem (hostWriteBytes s.inCap s.mem off (laneBytes v n))

/-- A host write (R107, R111). -/
def hostWrite (s : State) (off n : Nat) (v : Word) : State :=
  if ¬ Permitted off n then s.respond .busError else (writeEffect s off n v).respond .ack

/-- One bus access (R100): exactly one response. -/
def hostAccess (s : State) (r : BusRequest) : State :=
  if r.write then hostWrite s r.off.toNat r.size r.wdata else hostRead s r.off.toNat r.size

/-- The outside does one thing while rst = 0 (log 6, 7). -/
def hostEvent (s : State) : HostEvent → State
  | .access r => hostAccess s r
  | .rstRise => s.resetNow
  | .rstFall => s

/-- One host step: the next event of the host, if one is waiting. The block itself does nothing (70 R551). -/
def hostStep (s : State) : State :=
  match s.host with
  | [] => s
  | e :: es => hostEvent { s with host := es } e

/-- A step while rst = 1 (70 R550): every register is held; rst may fall; no bus access is taken. -/
def heldInReset (s : State) : Result :=
  match s.host with
  | [] => .next s
  | .rstFall :: es => .next { s with rst := false, host := es }
  | .rstRise :: es => .next { s with host := es }
  | .access _ :: _ => .fault .accessInReset

end Sys2Proof.Machine
end

