-- ==== Sys2Proof/Machine/KeySchedule.lean ====
section
/-! DEFINITION. The key-schedule expander (41_key_schedule R250 to R258) and the KEY_EXPAND command (R265). -/

namespace Sys2Proof.Machine

/-- Nr(ks, bs), the RoundCountTable (R250). It is not defined outside the nine pairs and no rule evaluates it there; the model
gives 0 (log 15). -/
def roundCount (ks bs : Nat) : Nat :=
  if ks = 16 then if bs = 16 then 10 else if bs = 24 then 12 else if bs = 32 then 14 else 0
  else if ks = 24 then if bs = 16 then 12 else if bs = 24 then 12 else if bs = 32 then 14 else 0
  else if ks = 32 then if bs = 16 then 14 else if bs = 24 then 14 else if bs = 32 then 14 else 0
  else 0

/-- The schedule's length in bytes (R251). -/
def scheduleLength (ks bs : Nat) : Nat := bs * (roundCount ks bs + 1)

/-- Rotate left by one byte (R253): the byte at the lowest index moves to the highest. -/
def rotWord : Bytes → Bytes
  | [] => []
  | b :: bs => bs ++ [b]

/-- xor a byte into the first byte of a word (R252, R253). -/
def xorFirst (c : Byte) : Bytes → Bytes
  | [] => []
  | b :: bs => (b ^^^ c) :: bs

/-- The previous word `t` as it enters the new word at byte offset `off` (R252), with the round constant of step `step`. -/
def scheduleWord (ks off step : Nat) (t : Bytes) : Bytes :=
  if off % ks = 0 then xorFirst (rcon step) ((rotWord t).map sbox)
  else if ks = 32 ∧ off % ks = 16 then t.map sbox
  else t

/-- The loop of R252: `n` more words after the bytes `w`. -/
def expandLoop (ks : Nat) : (n step : Nat) → (w : Bytes) → Bytes
  | 0, _, w => w
  | n + 1, step, w =>
    let off := w.length
    let t := scheduleWord ks off step ((w.drop (off - 4)).take 4)
    expandLoop ks n (if off % ks = 0 then step + 1 else step) (w ++ xorBytes ((w.drop (off - ks)).take 4) t)

/-- expand(key, bs) (R252): the while loop runs (total - ks) / 4 times (R262), the step counter starts at 1 (R254). -/
def expand (key : Bytes) (bs : Nat) : Bytes :=
  expandLoop key.length ((scheduleLength key.length bs - key.length) / 4) 1 key

/-- Round key `r` of a schedule: W[r × bs .. (r+1) × bs) (R257). -/
def roundKeyOf (w : Bytes) (bs r : Nat) : Bytes := (w.drop (r * bs)).take bs

/-- KEY_EXPAND (R265). -/
def execKeyExpand (bs : Nat) (s : State) : Result :=
  if s.cfgValid = false then raise .invalidKeySize s
  else if ¬ LegalSize bs then raise .invalidBlockSize s
  else finish (s.storeSchedule (expand s.cipherKey bs) bs (roundCount s.cfgKlen.toNat bs))

end Sys2Proof.Machine
end

