-- ==== Sys2Proof/Machine/Padding.lean ====
section
/-! DEFINITION. The padding unit (44_padding R400 to R415) and the PAD and UNPAD commands (R420, R422). -/

namespace Sys2Proof.Machine

/-- n = bs - L % bs, the pad length of the counted schemes (R403). -/
def padCount (len bs : Nat) : Nat := bs - len % bs

/-- How many random bytes padBytes draws: n - 1 for ISO10126, none otherwise (R410, R415). -/
def fillerCount (len bs : Nat) : Scheme → Nat
  | .zero => 0
  | .none => 0
  | .pkcs7 => 0
  | .ansix923 => 0
  | .iso10126 => padCount len bs - 1

/-- padBytes(D, bs, scheme) (R410); `filler k` is the k-th byte drawn from the random-byte port. -/
def padBytes (d : Bytes) (bs : Nat) (filler : Nat → Byte) : Scheme → Bytes
  | .zero => d ++ List.replicate ((bs - d.length % bs) % bs) 0
  | .none => d
  | .pkcs7 => d ++ List.replicate (padCount d.length bs) (BitVec.ofNat 8 (padCount d.length bs))
  | .ansix923 => d ++ List.replicate (padCount d.length bs - 1) 0 ++ [BitVec.ofNat 8 (padCount d.length bs)]
  | .iso10126 => d ++ (List.range (padCount d.length bs - 1)).map filler ++ [BitVec.ofNat 8 (padCount d.length bs)]

/-- How many of the first `limit` bytes of a sequence are 0 before the first that is not. -/
def zeroRun : (limit : Nat) → Bytes → Nat
  | 0, _ => 0
  | _ + 1, [] => 0
  | k + 1, b :: bs => if b = 0 then zeroRun k bs + 1 else 0

/-- Remove as many bytes as the last byte says; none where the sequence is empty or shorter than that (R411). -/
def unpadCounted (d : Bytes) : Option Bytes :=
  match d.getLast? with
  | Option.none => Option.none
  | some n => if d.length < n.toNat then Option.none else some (d.take (d.length - n.toNat))

/-- unpadBytes(D, bs, scheme) (R411); none stands for Err(InvalidPadding). -/
def unpadBytes (d : Bytes) (bs : Nat) : Scheme → Option Bytes
  | .zero => some (d.take (d.length - zeroRun bs d.reverse))
  | .none => some d
  | .pkcs7 => unpadCounted d
  | .ansix923 => unpadCounted d
  | .iso10126 => unpadCounted d

/-- PAD (R420). -/
def execPad (scheme : Scheme) (bs : Nat) (s : State) : Result :=
  if ¬ LegalSize bs then raise .invalidBlockSize s
  else if s.InOverflow then raise .lengthOverflow s
  else if scheme = .none ∧ s.Unaligned bs then raise .unalignedInput s
  else finish ((s.storeOut (padBytes s.inData bs s.filler scheme)).drawRng (fillerCount s.inLen.toNat bs scheme))

/-- UNPAD (R422). -/
def execUnpad (scheme : Scheme) (bs : Nat) (s : State) : Result :=
  if ¬ LegalSize bs then raise .invalidBlockSize s
  else if s.InOverflow then raise .lengthOverflow s
  else if scheme = .none ∧ s.Unaligned bs then raise .unalignedInput s
  else
    match unpadBytes s.inData bs scheme with
    | Option.none => raise .invalidPadding s
    | some u => finish (s.storeOut u)

end Sys2Proof.Machine
end

