-- ==== Sys2Proof/Machine/Rounds.lean ====
section
/-! DEFINITION. The round-transform engine (42_round_transforms): the round steps as functions on a block (R300 to R310), the
single-block transforms (R312, R313), and the nine commands that run them on STATE (R320 to R332). -/

namespace Sys2Proof.Machine

/-! ## Round steps -/

/-- SubBytes (R301). -/
def subBytes (b : Bytes) : Bytes := b.map sbox

/-- InvSubBytes (R302). -/
def invSubBytes (b : Bytes) : Bytes := b.map invSbox

/-- The offset C_r of row `r` for block size `bs` (R303). -/
def shiftOffset (bs r : Nat) : Nat :=
  match r with
  | 0 => 0
  | 1 => 1
  | 2 => if bs = 32 then 3 else 2
  | _ => if bs = 32 then 4 else 3

/-- P_bs[i] (R303, R304): byte i is row i % 4, column i / 4, and comes from the column C_r to its right. -/
def shiftIndex (bs i : Nat) : Nat := i % 4 + 4 * ((i / 4 + shiftOffset bs (i % 4)) % (bs / 4))

/-- Q_bs[i] (R305): byte i comes from the column C_r to its left. -/
def invShiftIndex (bs i : Nat) : Nat := i % 4 + 4 * ((i / 4 + (bs / 4 - shiftOffset bs (i % 4))) % (bs / 4))

/-- The block whose byte i is byte `p i` of `b`; all reads are of the old block (R322). -/
def permute (p : Nat → Nat) (b : Bytes) : Bytes := (List.range b.length).map fun i => b.getD (p i) 0

/-- ShiftRows (R303). -/
def shiftRows (b : Bytes) : Bytes := permute (shiftIndex b.length) b

/-- InvShiftRows (R305). -/
def invShiftRows (b : Bytes) : Bytes := permute (invShiftIndex b.length) b

/-- One column of MixColumns (R306). -/
def mixColumn (a0 a1 a2 a3 : Byte) : Bytes :=
  [ gfMul2 a0 ^^^ gfMul3 a1 ^^^ a2 ^^^ a3,
    a0 ^^^ gfMul2 a1 ^^^ gfMul3 a2 ^^^ a3,
    a0 ^^^ a1 ^^^ gfMul2 a2 ^^^ gfMul3 a3,
    gfMul3 a0 ^^^ a1 ^^^ a2 ^^^ gfMul2 a3 ]

/-- One column of InvMixColumns (R307). -/
def invMixColumn (a0 a1 a2 a3 : Byte) : Bytes :=
  [ gfMul14 a0 ^^^ gfMul11 a1 ^^^ gfMul13 a2 ^^^ gfMul9 a3,
    gfMul9 a0 ^^^ gfMul14 a1 ^^^ gfMul11 a2 ^^^ gfMul13 a3,
    gfMul13 a0 ^^^ gfMul9 a1 ^^^ gfMul14 a2 ^^^ gfMul11 a3,
    gfMul11 a0 ^^^ gfMul13 a1 ^^^ gfMul9 a2 ^^^ gfMul14 a3 ]

/-- A map of columns on every column of a block, four consecutive bytes each (R300). -/
def mapColumns (f : Byte → Byte → Byte → Byte → Bytes) : Bytes → Bytes
  | a0 :: a1 :: a2 :: a3 :: rest => f a0 a1 a2 a3 ++ mapColumns f rest
  | rest => rest

/-- MixColumns (R306). -/
def mixColumns (b : Bytes) : Bytes := mapColumns mixColumn b

/-- InvMixColumns (R307). -/
def invMixColumns (b : Bytes) : Bytes := mapColumns invMixColumn b

/-- AddRoundKey (R310), the round key given as its bytes. -/
def addRoundKey (b key : Bytes) : Bytes := xorBytes b key

/-! ## Single-block transforms -/

/-- One full round of encBlock (R312). -/
def encRound (rk : Nat → Bytes) (b : Bytes) (round : Nat) : Bytes :=
  addRoundKey (mixColumns (shiftRows (subBytes b))) (rk round)

/-- One full round of decBlock (R313). -/
def decRound (rk : Nat → Bytes) (b : Bytes) (round : Nat) : Bytes :=
  invSubBytes (invShiftRows (invMixColumns (addRoundKey b (rk round))))

/-- encBlock (R312): rounds 1 to nr - 1, then the final round without MixColumns. -/
def encryptBlock (rk : Nat → Bytes) (nr : Nat) (b : Bytes) : Bytes :=
  let b1 := (List.range' 1 (nr - 1)).foldl (encRound rk) (addRoundKey b (rk 0))
  addRoundKey (shiftRows (subBytes b1)) (rk nr)

/-- decBlock (R313): rounds nr - 1 down to 1, then AddRoundKey(0). -/
def decryptBlock (rk : Nat → Bytes) (nr : Nat) (b : Bytes) : Bytes :=
  let b1 := invSubBytes (invShiftRows (addRoundKey b (rk nr)))
  addRoundKey ((List.range' 1 (nr - 1)).reverse.foldl (decRound rk) b1) (rk 0)

/-! ## Commands -/

/-- STATE[0..bs) <- f(STATE[0..bs)), for a legal block size (R320 to R325). -/
def roundStep (f : Bytes → Bytes) (bs : Nat) (s : State) : Result :=
  if ¬ LegalSize bs then raise .invalidBlockSize s else finish (s.storeState (f (s.stateBytes bs)))

/-- STATE[0..bs) <- f(STATE[0..bs)), for a legal block size and a schedule that serves round keys up to `round` (R311). -/
def keyedStep (f : Bytes → Bytes) (bs round : Nat) (s : State) : Result :=
  if ¬ LegalSize bs then raise .invalidBlockSize s
  else if s.NoSchedule bs round then raise .noSchedule s
  else finish (s.storeState (f (s.stateBytes bs)))

/-- SUB_BYTES (R320). -/
def execSubBytes (bs : Nat) (s : State) : Result := roundStep subBytes bs s

/-- INV_SUB_BYTES (R321). -/
def execInvSubBytes (bs : Nat) (s : State) : Result := roundStep invSubBytes bs s

/-- SHIFT_ROWS (R322). -/
def execShiftRows (bs : Nat) (s : State) : Result := roundStep shiftRows bs s

/-- INV_SHIFT_ROWS (R323). -/
def execInvShiftRows (bs : Nat) (s : State) : Result := roundStep invShiftRows bs s

/-- MIX_COLUMNS (R324). -/
def execMixColumns (bs : Nat) (s : State) : Result := roundStep mixColumns bs s

/-- INV_MIX_COLUMNS (R325). -/
def execInvMixColumns (bs : Nat) (s : State) : Result := roundStep invMixColumns bs s

/-- ADD_ROUND_KEY (R326). -/
def execAddRoundKey (bs round : Nat) (s : State) : Result :=
  keyedStep (fun b => addRoundKey b (s.roundKey bs round)) bs round s

/-- ENC_BLOCK (R330): Nr is RK_INFO.RK_NR, so the round keys read never pass it. -/
def execEncBlock (bs : Nat) (s : State) : Result :=
  keyedStep (encryptBlock (s.roundKey bs) s.rkNr.toNat) bs s.rkNr.toNat s

/-- DEC_BLOCK (R332). -/
def execDecBlock (bs : Nat) (s : State) : Result :=
  keyedStep (decryptBlock (s.roundKey bs) s.rkNr.toNat) bs s.rkNr.toNat s

end Sys2Proof.Machine
end

