-- ==== Sys2Proof/Machine/Chaining.lean ====
section
/-! DEFINITION. ECB and CBC chaining (43_chaining R350, R351) and the ENCRYPT and DECRYPT commands (R360, R362). -/

namespace Sys2Proof.Machine

/-- chainEnc over `m` blocks (R350): `enc` is encBlock under the schedule, `prev` the previous ciphertext block. -/
def chainEncLoop (enc : Bytes → Bytes) (bs : Nat) (mode : Mode) : (m : Nat) → (prev p : Bytes) → Bytes × Bytes
  | 0, prev, _ => ([], prev)
  | m + 1, prev, p =>
    match mode with
    | .ecb =>
      let rest := chainEncLoop enc bs .ecb m prev (p.drop bs)
      (enc (p.take bs) ++ rest.1, rest.2)
    | .cbc =>
      let y := enc (xorBytes (p.take bs) prev)
      let rest := chainEncLoop enc bs .cbc m y (p.drop bs)
      (y ++ rest.1, rest.2)

/-- chainDec over `m` blocks (R351): `dec` is decBlock under the schedule. -/
def chainDecLoop (dec : Bytes → Bytes) (bs : Nat) (mode : Mode) : (m : Nat) → (prev c : Bytes) → Bytes × Bytes
  | 0, prev, _ => ([], prev)
  | m + 1, prev, c =>
    match mode with
    | .ecb =>
      let rest := chainDecLoop dec bs .ecb m prev (c.drop bs)
      (dec (c.take bs) ++ rest.1, rest.2)
    | .cbc =>
      let rest := chainDecLoop dec bs .cbc m (c.take bs) (c.drop bs)
      (xorBytes (dec (c.take bs)) prev ++ rest.1, rest.2)

/-- chainEnc(P, W, bs, Nr, mode, iv) -> (C, last) (R350). -/
def chainEnc (p w : Bytes) (bs nr : Nat) (mode : Mode) (iv : Bytes) : Bytes × Bytes :=
  chainEncLoop (encryptBlock (roundKeyOf w bs) nr) bs mode (p.length / bs) iv p

/-- chainDec(C, W, bs, Nr, mode, iv) -> (P, last) (R351). -/
def chainDec (c w : Bytes) (bs nr : Nat) (mode : Mode) (iv : Bytes) : Bytes × Bytes :=
  chainDecLoop (decryptBlock (roundKeyOf w bs) nr) bs mode (c.length / bs) iv c

/-- The completion writes ENCRYPT and DECRYPT share (R360, R362): the schedule, the result, and in CBC the chain value. -/
def State.storeCipher (s : State) (w : Bytes) (bs nr : Nat) (out last : Bytes) : State :=
  ((s.storeSchedule w bs nr).storeOut out).storeChain s.cfgMode last

/-- ENCRYPT (R360). -/
def execEncrypt (bs : Nat) (s : State) : Result :=
  if s.cfgValid = false then raise .invalidKeySize s
  else if ¬ LegalSize bs then raise .invalidBlockSize s
  else if s.InOverflow then raise .lengthOverflow s
  else if s.IvMismatch bs then raise .invalidIVLength s
  else if s.cfgPad = .none ∧ s.Unaligned bs then raise .unalignedInput s
  else
    let w := expand s.cipherKey bs
    let nr := roundCount s.cfgKlen.toNat bs
    let p := padBytes s.inData bs s.filler s.cfgPad
    let r := chainEnc p w bs nr s.cfgMode (s.ivBytes bs)
    finish ((s.storeCipher w bs nr r.1 r.2).drawRng (fillerCount s.inLen.toNat bs s.cfgPad))

/-- DECRYPT (R362). -/
def execDecrypt (bs : Nat) (s : State) : Result :=
  if s.cfgValid = false then raise .invalidKeySize s
  else if ¬ LegalSize bs then raise .invalidBlockSize s
  else if s.InOverflow then raise .lengthOverflow s
  else if s.IvMismatch bs then raise .invalidIVLength s
  else if s.Unaligned bs then raise .unalignedInput s
  else
    let w := expand s.cipherKey bs
    let nr := roundCount s.cfgKlen.toNat bs
    let r := chainDec s.inData w bs nr s.cfgMode (s.ivBytes bs)
    match unpadBytes r.1 bs s.cfgPad with
    | Option.none => raise .invalidPadding s
    | some u => finish (s.storeCipher w bs nr u r.2)

end Sys2Proof.Machine
end

