-- ==== Sys2Proof/Machine/Control.lean ====
section
/-! DEFINITION. The control commands NOP, CONSTRUCT and ZEROIZE (45_control R450, R452, R456). -/

namespace Sys2Proof.Machine

/-- NOP (R450). -/
def execNop (s : State) : Result := finish s

/-- CONSTRUCT (R452): the one failing command with effects of its own, the slot and the schedule are emptied first. -/
def execConstruct (mode : Mode) (scheme : Scheme) (klen : Nat) (s : State) : Result :=
  if ¬ LegalSize klen then raise .invalidKeySize s.clearSlot.clearSchedule
  else finish (s.setSlot (s.latchedKey klen) mode scheme klen).clearSchedule

/-- Every buffer, CKEY and length register 0, slot and schedule empty (R456). -/
def State.zeroized (s : State) : State :=
  { s.clearSlot.clearSchedule with mem := Memory.zeroed, ckey := Vector.replicate 32 0, inLen := 0, ivLen := 0, outLen := 0 }

/-- ZEROIZE (R456). -/
def execZeroize (s : State) : Result := finish s.zeroized

end Sys2Proof.Machine
end

