-- ==== Sys2Proof/Machine/Dispatch.lean ====
section
/-! DEFINITION. One arm per command: the completion step of each (60_exceptions R521). -/

namespace Sys2Proof.Machine

def exec (i : Instr) (s : State) : Host.Outcome State Fault Refusal :=
  match i with
  | .nop => Sys2Proof.Machine.execNop s
  | .construct mode scheme klen => Sys2Proof.Machine.execConstruct mode scheme klen s
  | .zeroize => Sys2Proof.Machine.execZeroize s
  | .keyExpand bs => Sys2Proof.Machine.execKeyExpand bs s
  | .encBlock bs => Sys2Proof.Machine.execEncBlock bs s
  | .decBlock bs => Sys2Proof.Machine.execDecBlock bs s
  | .subBytes bs => Sys2Proof.Machine.execSubBytes bs s
  | .invSubBytes bs => Sys2Proof.Machine.execInvSubBytes bs s
  | .shiftRows bs => Sys2Proof.Machine.execShiftRows bs s
  | .invShiftRows bs => Sys2Proof.Machine.execInvShiftRows bs s
  | .mixColumns bs => Sys2Proof.Machine.execMixColumns bs s
  | .invMixColumns bs => Sys2Proof.Machine.execInvMixColumns bs s
  | .addRoundKey bs round => Sys2Proof.Machine.execAddRoundKey bs round s
  | .encrypt bs => Sys2Proof.Machine.execEncrypt bs s
  | .decrypt bs => Sys2Proof.Machine.execDecrypt bs s
  | .pad scheme bs => Sys2Proof.Machine.execPad scheme bs s
  | .unpad scheme bs => Sys2Proof.Machine.execUnpad scheme bs s

end Sys2Proof.Machine
end

