-- ==== Sys2Proof/Machine/Step.lean ====
section
/-! DEFINITION. One step of the block: held in reset, the Engine's completion step, or a host step (20_memory R115). -/

namespace Sys2Proof.Machine

/-- One event of the block (20_memory R115). When the drawn LATENCY has run out the Engine completes PCMD: the decoded
command's rule, or IllegalCommand (60 R507, R521). Until then, and when idle, the host's next event is taken. -/
def step (s : State) : Host.Outcome State Fault Refusal :=
  if s.rst = true then heldInReset s
  else
    match s.seq with
    | .idle => .next (hostStep s)
    | .executing w (k + 1) => .next (hostStep { s with seq := .executing w k })
    | .executing w 0 =>
      match decode w with
      | .ok i => exec i s
      | .error _ => raise .illegalCommand s

/-- `s` with the command word `w` issued and its LATENCY run out, so that the next step completes it: what the host's write of
the word to CMD does (60 R520), with LATENCY 0 and rst low (log 6). -/
def State.withFetchWord (s : State) (nbits w : Nat) : State :=
  { s with rst := false, seq := .executing (tableWord nbits w) 0, done := false, errcode := .ok }

end Sys2Proof.Machine
end

