-- ==== Sys2Proof/Machine/Field.lean ====
section
/-! DEFINITION. The field GF(2^8) and the maps the ROM's tables are generated from (40_rom_tables R200 to R205). The datapath
reads the ROM (R206); these clear definitions are what the tables are stated to agree with. -/

namespace Sys2Proof.Machine

/-- Multiplication by x modulo x^8 + x^4 + x^3 + x + 1 (R200, R201). -/
def xtime (a : Byte) : Byte := (a <<< 1) ^^^ (if a.getLsbD 7 then 0x1B else 0x00)

/-- xtime^i. -/
def xtimes : Nat → Byte → Byte
  | 0, a => a
  | i + 1, a => xtime (xtimes i a)

/-- a · b, the xor over the set bits i of b of xtime^i(a) (R201). -/
def gfMul (a b : Byte) : Byte :=
  (List.range 8).foldl (fun acc i => if b.getLsbD i then acc ^^^ xtimes i a else acc) 0

/-- Bit i of the affine map is y[i] xor y[i+4] xor y[i+5] xor y[i+6] xor y[i+7] xor 0x63[i], indices modulo 8 (R202): the
rotations of y left by 4, 3, 2 and 1. -/
def affine (y : Byte) : Byte :=
  y ^^^ y.rotateLeft 4 ^^^ y.rotateLeft 3 ^^^ y.rotateLeft 2 ^^^ y.rotateLeft 1 ^^^ 0x63

/-- The round-constant sequence (R205): rcon(1) = 0x01, rcon(j+1) = xtime(rcon(j)). `rconSeq j` is rcon(j + 1). -/
def rconSeq : Nat → Byte
  | 0 => 0x01
  | j + 1 => xtime (rconSeq j)

end Sys2Proof.Machine
end

