-- ==== Sys2Proof/Safety.lean ====
section
/-! DEFINITION. The terms the statements use: what a completion leaves (60 R521, R522), which parts of the state a command
leaves alone (the frames), the order of the checks as a table (60 R509), and the invariants of the block. -/

namespace Sys2Proof.Machine

/-! ## Frames: `t` is the state after, `s` the state before -/

/-- Every buffer byte reads as before. -/
def MemSame (s t : State) : Prop := ∀ x, t.mem.read x = s.mem.read x

/-- Every buffer byte outside the `n` bytes from `a` up reads as before. -/
def MemSameOutside (a n : Nat) (s t : State) : Prop := ∀ x, x < a ∨ a + n ≤ x → t.mem.read x = s.mem.read x

/-- The bytes `[lo, hi)` of the window read as before. -/
def BytesSame (lo hi : Nat) (s t : State) : Prop := ∀ x, lo ≤ x → x < hi → t.mem.read x = s.mem.read x

/-- The cipher slot, CKEY, CFG and CFG_VALID, is as before (45_control R449). -/
structure SlotSame (s t : State) : Prop where
  ckey : t.ckey = s.ckey
  valid : t.cfgValid = s.cfgValid
  mode : t.cfgMode = s.cfgMode
  pad : t.cfgPad = s.cfgPad
  klen : t.cfgKlen = s.cfgKlen

/-- RK_INFO and RK_VALID are as before. -/
structure ScheduleRegsSame (s t : State) : Prop where
  valid : t.rkValid = s.rkValid
  bs : t.rkBs = s.rkBs
  nr : t.rkNr = s.rkNr

/-- What no command writes: OVR, CTRL.IE, CAP, the pins, the host's events, the last response, and the counters of issues,
resets and busy-window draws. -/
structure ShellSame (s t : State) : Prop where
  ovr : t.ovr = s.ovr
  ie : t.ie = s.ie
  inCap : t.inCap = s.inCap
  rst : t.rst = s.rst
  host : t.host = s.host
  resp : t.resp = s.resp
  issues : t.issues = s.issues
  resets : t.resets = s.resets
  busyDraws : t.busyDraws = s.busyDraws

/-- IN_LEN and IV_LEN are as before. -/
structure LengthsSame (s t : State) : Prop where
  inLen : t.inLen = s.inLen
  ivLen : t.ivLen = s.ivLen

/-- The completion bookkeeping of R521 with an error code. -/
structure CompletedWith (c : ErrCode) (t : State) : Prop where
  seq : t.seq = .idle
  done : t.done = true
  errcode : t.errcode = c

/-- A command failed with code `c` and left everything but the bookkeeping and OUT_LEN alone (60 R522, R523). -/
structure FailedWith (c : ErrCode) (s t : State) : Prop where
  completed : CompletedWith c t
  outLen : t.outLen = 0
  mem : MemSame s t
  slot : SlotSame s t
  schedule : ScheduleRegsSame s t
  lengths : LengthsSame s t
  shell : ShellSame s t
  rng : t.rngDraws = s.rngDraws

/-- A command succeeded and wrote, beside the bookkeeping, only STATE[0..bs) (10_state R65, R76). -/
structure WroteOnlyState (bs : Nat) (s t : State) : Prop where
  completed : CompletedWith .ok t
  mem : MemSameOutside stateBase bs s t
  outLen : t.outLen = s.outLen
  slot : SlotSame s t
  schedule : ScheduleRegsSame s t
  lengths : LengthsSame s t
  shell : ShellSame s t
  rng : t.rngDraws = s.rngDraws

/-- STATE byte `i` (10_state R65). -/
def State.stateByte (s : State) (i : Nat) : Byte := s.mem.read (stateBase + i)

/-- IN byte `i` (10_state R69). -/
def State.inByte (s : State) (i : Nat) : Byte := s.mem.read (inBase + i)

/-- OUT byte `i` (10_state R70). -/
def State.outByte (s : State) (i : Nat) : Byte := s.mem.read (outBase + i)

/-- RK byte `i` (10_state R67). -/
def State.rkByte (s : State) (i : Nat) : Byte := s.mem.read (rkBase + i)

/-- CHAIN byte `i` (10_state R68). -/
def State.chainByte (s : State) (i : Nat) : Byte := s.mem.read (chainBase + i)

/-- OUT[0..OUT_LEN), the result (10_state R56). -/
def State.outData (s : State) : Bytes := s.mem.readBytes outBase s.outLen.toNat

/-- Block `i` of a byte sequence (43 R350). -/
def blockOf (d : Bytes) (bs i : Nat) : Bytes := (d.drop (i * bs)).take bs

/-- An access that reaches only IV, STATE, CHAIN, RK, IN below IN_CAP, or OUT below OUT_CAP: the readable buffers (R101). -/
def ReadableBuffer (inCap off n : Nat) : Prop :=
  (ivBase ≤ off ∧ off + n ≤ chainBase + blockCap) ∨ (rkBase ≤ off ∧ off + n ≤ rkBase + rkCap) ∨
    (inBase ≤ off ∧ off + n ≤ inBase + inCap) ∨ (outBase ≤ off ∧ off + n ≤ outBase + (inCap + 32))

/-- An access that reaches only IV, STATE or IN below IN_CAP: the buffers the host reads and writes (R101). -/
def ReadWriteBuffer (inCap off n : Nat) : Prop :=
  (ivBase ≤ off ∧ off + n ≤ stateBase + blockCap) ∨ (inBase ≤ off ∧ off + n ≤ inBase + inCap)

/-- An access that reaches only KEY, IV, STATE or IN below IN_CAP: the buffers the host writes (R101, R111). -/
def WritableBuffer (inCap off n : Nat) : Prop :=
  (keyBase ≤ off ∧ off + n ≤ stateBase + blockCap) ∨ (inBase ≤ off ∧ off + n ≤ inBase + inCap)

/-! ## The order of the checks (60 R509) -/

/-- The first error of a list of conditions, in order. -/
def firstError : List (Bool × ErrCode) → ErrCode
  | [] => .ok
  | (b, c) :: rest => if b then c else firstError rest

/-- BS ∉ {16, 24, 32}. -/
def badSize (bs : Nat) : Bool := bs != 16 && bs != 24 && bs != 32

/-- DECRYPT's or UNPAD's unpadBytes rejects the bytes. -/
def badPadding (d : Bytes) (bs : Nat) (p : Scheme) : Bool := (unpadBytes d bs p).isNone

/-- What DECRYPT recovers before it unpads (R362). -/
def State.decrypted (s : State) (bs : Nat) : Bytes :=
  (chainDec s.inData (expand s.cipherKey bs) bs (roundCount s.cfgKlen.toNat bs) s.cfgMode (s.ivBytes bs)).1

/-- The second table of R509: the checks of each command after IllegalCommand, in the order of the priority list. -/
def checksOf (s : State) : Instr → List (Bool × ErrCode)
  | .nop => []
  | .zeroize => []
  | .construct _ _ klen => [(badSize klen, .invalidKeySize)]
  | .keyExpand bs => [(!s.cfgValid, .invalidKeySize), (badSize bs, .invalidBlockSize)]
  | .subBytes bs => [(badSize bs, .invalidBlockSize)]
  | .invSubBytes bs => [(badSize bs, .invalidBlockSize)]
  | .shiftRows bs => [(badSize bs, .invalidBlockSize)]
  | .invShiftRows bs => [(badSize bs, .invalidBlockSize)]
  | .mixColumns bs => [(badSize bs, .invalidBlockSize)]
  | .invMixColumns bs => [(badSize bs, .invalidBlockSize)]
  | .encBlock bs => [(badSize bs, .invalidBlockSize), (!s.rkValid || s.rkBs.toNat != bs, .noSchedule)]
  | .decBlock bs => [(badSize bs, .invalidBlockSize), (!s.rkValid || s.rkBs.toNat != bs, .noSchedule)]
  | .addRoundKey bs r =>
    [(badSize bs, .invalidBlockSize), (!s.rkValid || s.rkBs.toNat != bs || decide (s.rkNr.toNat < r), .noSchedule)]
  | .encrypt bs =>
    [ (!s.cfgValid, .invalidKeySize), (badSize bs, .invalidBlockSize), (decide (s.inCap < s.inLen.toNat), .lengthOverflow),
      (s.cfgMode == .cbc && s.ivLen.toNat != bs, .invalidIVLength),
      (s.cfgPad == .none && s.inLen.toNat % bs != 0, .unalignedInput) ]
  | .decrypt bs =>
    [ (!s.cfgValid, .invalidKeySize), (badSize bs, .invalidBlockSize), (decide (s.inCap < s.inLen.toNat), .lengthOverflow),
      (s.cfgMode == .cbc && s.ivLen.toNat != bs, .invalidIVLength), (s.inLen.toNat % bs != 0, .unalignedInput),
      (badPadding (s.decrypted bs) bs s.cfgPad, .invalidPadding) ]
  | .pad p bs =>
    [ (badSize bs, .invalidBlockSize), (decide (s.inCap < s.inLen.toNat), .lengthOverflow),
      (p == .none && s.inLen.toNat % bs != 0, .unalignedInput) ]
  | .unpad p bs =>
    [ (badSize bs, .invalidBlockSize), (decide (s.inCap < s.inLen.toNat), .lengthOverflow),
      (p == .none && s.inLen.toNat % bs != 0, .unalignedInput), (badPadding s.inData bs p, .invalidPadding) ]

/-! ## Invariants -/

/-- The buffers are in canonical form, list only buffer bytes, and IN_CAP is a value the spec allows (00_scope R11). -/
structure State.MemOk (s : State) : Prop where
  wf : s.mem.wf = true
  inBuffers : s.mem.inBuffers s.inCap = true
  capMin : Config.inCapMin ≤ s.inCap
  capMax : s.inCap ≤ Config.inCapMax

/-- CFG and CFG_VALID agree (10_state R53): KLEN is 16, 24 or 32 when CFG_VALID = 1; CFG is 0 when CFG_VALID = 0. -/
structure State.SlotOk (s : State) : Prop where
  klen : s.cfgValid = true → LegalSize s.cfgKlen.toNat
  empty : s.cfgValid = false → s.cfgWord = 0

/-- RK_INFO and RK_VALID agree (10_state R58, R61): RK_INFO = 0 iff RK_VALID = 0, and while RK_VALID = 1 a cipher is constructed,
RK_BS is a legal size, RK_NR its round count, and RK holds expand(CKEY[0..CFG.KLEN), RK_BS). -/
structure State.ScheduleOk (s : State) : Prop where
  info : s.rkInfoWord = 0 ↔ s.rkValid = false
  slot : s.rkValid = true → s.cfgValid = true
  size : s.rkValid = true → LegalSize s.rkBs.toNat
  rounds : s.rkValid = true → s.rkNr.toNat = roundCount s.cfgKlen.toNat s.rkBs.toNat
  bytes : s.rkValid = true →
    s.mem.readBytes rkBase (scheduleLength s.cfgKlen.toNat s.rkBs.toNat) = expand s.cipherKey s.rkBs.toNat

/-- While BUSY = 1, DONE = 0 and ERRCODE = 0 (60 R520); an error leaves no result (60 R522); a result fits OUT (43 R360); while
rst = 1 the registers are held at their reset values (70 R550). -/
structure State.FlowOk (s : State) : Prop where
  busy : s.busy = true → s.done = false ∧ s.errcode = .ok
  failed : s.err = true → s.outLen = 0
  result : s.outLen.toNat ≤ s.outCap
  held : s.rst = true → s.seq = .idle ∧ s.statusWord = 0 ∧ s.cfgWord = 0 ∧ s.ie = false ∧ s.inLen = 0 ∧ s.outLen = 0 ∧
    s.ivLen = 0 ∧ s.rkInfoWord = 0

/-- The invariant of the block. -/
structure State.Inv (s : State) : Prop where
  mem : s.MemOk
  slot : s.SlotOk
  schedule : s.ScheduleOk
  flow : s.FlowOk

end Sys2Proof.Machine
end

