-- ==== Sys2Proof/Certificates/Slice0/Obligations.lean ====
section
/-! DEFINITION. The statements for the provers, from the numbered rules of spec/. -/

open Sys2Proof Sys2Proof.Machine

/-! ## Encoding (30_encoding) -/

/-- R151 to R155, R158, R162: decoding the word of any command whose fields fit gives the command back. -/
def Obligations.DecodeOfEncodeIsIdentity : Prop :=
  ∀ i : Instr, i.WellFormed → decode (encode i) = .ok i

/-- R159: a word that decodes is the word of the command it decodes to, and that command's fields fit. -/
def Obligations.EncodeOfDecodeIsIdentity : Prop :=
  ∀ (w : Word) (i : Instr), decode w = .ok i → i.WellFormed ∧ encode i = w

/-- R158 to R160: a word decodes exactly when it is legal by the table of R159, its must-be-0 bits and codes read off its value,
and the command it decodes to is the one of its low byte. -/
def Obligations.DecodeLegalExactlyByFormat : Prop :=
  ∀ w : Word,
    ((∃ i, decode w = .ok i) ↔
      ((w.toNat % 256 = 0x00 ∨ w.toNat % 256 = 0x02) ∧ w.toNat / 2 ^ 8 = 0) ∨
      (w.toNat % 256 = 0x01 ∧ w.toNat / 2 ^ 12 % 2 ^ 4 = 0 ∧ w.toNat / 2 ^ 24 = 0 ∧ w.toNat / 2 ^ 9 % 2 ^ 3 ≤ 4) ∨
      (((0x10 ≤ w.toNat % 256 ∧ w.toNat % 256 ≤ 0x12) ∨ (0x20 ≤ w.toNat % 256 ∧ w.toNat % 256 ≤ 0x25) ∨
        w.toNat % 256 = 0x30 ∨ w.toNat % 256 = 0x31) ∧ w.toNat / 2 ^ 16 = 0) ∨
      (w.toNat % 256 = 0x26 ∧ w.toNat / 2 ^ 20 = 0) ∨
      ((w.toNat % 256 = 0x40 ∨ w.toNat % 256 = 0x41) ∧ w.toNat / 2 ^ 19 = 0 ∧ w.toNat / 2 ^ 16 % 2 ^ 3 ≤ 4)) ∧
    ∀ i, decode w = .ok i → i.opcode.toNat = w.toNat % 256

/-- R162 and 95_test_vectors V153, V154: a few words of each family, and illegal ones. -/
def Obligations.SpecWordsDecode : Prop :=
  decode 0x00100001 = .ok (.construct .ecb .zero 16) ∧ decode 0x00100501 = .ok (.construct .cbc .pkcs7 16) ∧
  decode 0x00200901 = .ok (.construct .cbc .iso10126 32) ∧ decode 0x00000002 = .ok .zeroize ∧
  decode 0x00001010 = .ok (.keyExpand 16) ∧ decode 0x00001811 = .ok (.encBlock 24) ∧
  decode 0x00031026 = .ok (.addRoundKey 16 3) ∧ decode 0x00002030 = .ok (.encrypt 32) ∧
  decode 0x00021040 = .ok (.pad .pkcs7 16) ∧ decode 0x00011841 = .ok (.unpad .none 24) ∧
  decode 0x0004FF41 = .ok (.unpad .iso10126 255) ∧ decode 0x00000003 = .error .unassignedOpcode ∧
  decode 0x0000E001 = .error .reservedBits ∧ decode 0x00200C01 = .error .reservedScheme ∧
  decode 0x00101026 = .error .reservedBits ∧ decode 0x00091041 = .error .reservedBits

/-! ## Steps, issue and completion (10_state R71, 20_memory R113 to R116, 60_exceptions R507 to R523) -/

/-- R521: when the LATENCY has run out and PCMD decodes, the step is the command's rule, exactly `exec`. -/
def Obligations.StepRunsDecodedCommand : Prop :=
  ∀ (s : State) (w : Word) (i : Instr),
    s.rst = false → s.seq = .executing w 0 → decode w = .ok i → step s = exec i s

/-- A state with a fetched word runs that word's command in its very next step; it executes that word with LATENCY 0, rst low,
DONE and ERRCODE cleared, and every other field is as before (log 6). -/
def Obligations.FetchedWordRunsNext : Prop :=
  ∀ (s : State) (nbits w : Nat) (i : Instr), decodeTableWord nbits w = some i →
    step (s.withFetchWord nbits w) = exec i (s.withFetchWord nbits w) ∧
    MemSame s (s.withFetchWord nbits w) ∧ SlotSame s (s.withFetchWord nbits w) ∧
    ScheduleRegsSame s (s.withFetchWord nbits w) ∧ LengthsSame s (s.withFetchWord nbits w) ∧
    let t := s.withFetchWord nbits w
    t.seq = .executing (tableWord nbits w) 0 ∧ t.rst = false ∧ t.done = false ∧ t.errcode = .ok ∧ t.mem = s.mem ∧
    t.outLen = s.outLen ∧ t.ovr = s.ovr ∧ t.ie = s.ie ∧ t.inCap = s.inCap ∧ t.host = s.host ∧ t.resp = s.resp ∧
    t.issues = s.issues ∧ t.resets = s.resets ∧ t.busyDraws = s.busyDraws ∧ t.rngDraws = s.rngDraws

/-- R115: while idle, or executing with LATENCY left, one step takes the host's next event, if there is one. -/
def Obligations.StepTakesNextHostEvent : Prop :=
  ∀ s : State, s.rst = false →
    (s.seq = .idle → s.host = [] → step s = .next s) ∧
    (∀ e es, s.seq = .idle → s.host = e :: es → step s = .next (hostEvent { s with host := es } e)) ∧
    (∀ w k, s.seq = .executing w (k + 1) → s.host = [] → step s = .next { s with seq := .executing w k }) ∧
    (∀ w k e es, s.seq = .executing w (k + 1) → s.host = e :: es →
      step s = .next (hostEvent { s with seq := .executing w k, host := es } e))

/-- R520: a host write of `v` to CMD while BUSY = 0 issues `v`; a CMD write while BUSY = 1 is dropped and sets OVR. -/
def Obligations.CmdWriteIssues : Prop :=
  ∀ (s : State) (r : BusRequest), r.write = true → r.off = 0 → r.size = 4 →
    (s.busy = false → ∃ t, hostAccess s r = t ∧ (∃ k, t.seq = .executing r.wdata k) ∧ t.busy = true ∧ t.done = false ∧
      t.errcode = .ok ∧ t.err = false ∧ t.irq = false ∧ MemSame s t ∧ SlotSame s t ∧ ScheduleRegsSame s t ∧ LengthsSame s t ∧
      t.outLen = s.outLen ∧ t.ovr = s.ovr ∧ t.ie = s.ie ∧ t.inCap = s.inCap ∧ t.rst = s.rst ∧ t.host = s.host ∧
      t.rngDraws = s.rngDraws) ∧
    (s.busy = true → hostAccess s r = { s with ovr := true, resp := some .ack })

/-- R511, R521: every command completes, with or without error: no command stops the block, and none leaves it busy. -/
def Obligations.EveryCommandCompletes : Prop :=
  ∀ (i : Instr) (s : State), ∃ t, exec i s = .next t ∧ t.busy = false ∧ t.done = true ∧ t.rst = s.rst ∧ t.host = s.host

/-- R521, R570: a command issued with LATENCY `k` has completed after `k + 1` steps, whatever word it is and whatever accesses
the host makes meanwhile, unless a reset comes. The number of steps is the model's own LATENCY countdown (log 5). -/
def Obligations.IssuedCommandCompletes : Prop :=
  ∀ (s : State) (w : Word) (k : Nat), s.rst = false → s.seq = .executing w k → HostEvent.rstRise ∉ s.host →
    ∃ t, core.run (k + 1) s = .next t ∧ t.busy = false ∧ t.done = true

/-- 10_state R85, R110: the busy window. A permitted host write to any address but STATUS and CTRL is dropped and sets OVR; a
permitted read of STATUS, CTRL, CAP or ID returns the register; any other permitted read returns one draw per byte read, in the
lanes of R110. That the draws are Config.busyByte of the running count busyDraws is the model's choice (log 3). -/
def Obligations.BusyWindow : Prop :=
  ∀ (s : State) (r : BusRequest), s.busy = true → Permitted r.off.toNat r.size →
    (r.write = true → r.off ≠ 0x004 → r.off ≠ 0x010 → hostAccess s r = { s with ovr := true, resp := some .ack }) ∧
    (r.write = false → r.off = 0x004 → hostAccess s r = { s with resp := some (.data s.statusWord) }) ∧
    (r.write = false → r.off = 0x010 → hostAccess s r = { s with resp := some (.data s.ctrlWord) }) ∧
    (r.write = false → r.off = 0x024 → hostAccess s r = { s with resp := some (.data s.capWord) }) ∧
    (r.write = false → r.off = 0x028 → hostAccess s r = { s with resp := some (.data 0x524A0007) }) ∧
    (r.write = false → ¬ BusyReadable r.off.toNat →
      ∃ v, hostAccess s r = { s with resp := some (.data v), busyDraws := s.busyDraws + r.size } ∧
        (∀ k, k < r.size → laneByte v k = Config.busyByte (s.busyDraws + k)) ∧
        ∀ k, r.size ≤ k → k < 4 → laneByte v k = 0)

/-- 20_memory R116: no step between issue and completion changes an operand or a result of the command. -/
def Obligations.OperandsHeldWhileBusy : Prop :=
  ∀ (s : State) (w : Word) (k : Nat), s.rst = false → s.seq = .executing w (k + 1) →
    (∀ es, s.host ≠ .rstRise :: es) →
    ∃ t, step s = .next t ∧ t.seq = .executing w k ∧ MemSame s t ∧ SlotSame s t ∧ ScheduleRegsSame s t ∧ LengthsSame s t ∧
      t.outLen = s.outLen ∧ t.inCap = s.inCap ∧ t.rngDraws = s.rngDraws

/-! ## The host port (20_memory, 10_state R51 to R66) -/

/-- R107: a bus error answers error = 1 and rdata = 0 and changes no state of the block, busy or not. -/
def Obligations.BusErrorChangesNothing : Prop :=
  ∀ (s : State) (r : BusRequest),
    ¬ ((r.size = 1 ∨ r.size = 2 ∨ r.size = 4) ∧ r.off.toNat % r.size = 0 ∧ (r.off.toNat < 0x100 → r.size = 4)) →
    hostAccess s r = { s with resp := some .busError }

/-- R110, R114: no read has a side effect; it answers once and, in the busy window, draws. -/
def Obligations.ReadsHaveNoSideEffect : Prop :=
  ∀ (s : State) (r : BusRequest), r.write = false →
    ∃ a d, hostAccess s r = { s with resp := some a, busyDraws := d } ∧ (s.busy = false → d = s.busyDraws)

/-- R104, R111, R565: a permitted host write into IV, STATE or IN while idle, read back with the same size, gives the bytes
written: the low 8n bits of the write data, zero-extended. -/
def Obligations.WrittenBytesReadBack : Prop :=
  ∀ (s : State) (off n : Nat) (v : Word), s.busy = false → Permitted off n → off < 2 ^ 18 → s.inCap ≤ Config.inCapMax →
    ReadWriteBuffer s.inCap off n →
    (hostRead (hostWrite s off n v) off n).resp = some (.data (BitVec.ofNat 32 (v.toNat % 2 ^ (8 * n))))

/-- R62, R104, R111: an idle permitted host write into KEY, IV, STATE or IN stores byte lane k of the write data at offset o + k. -/
def Obligations.WrittenBytesAreStored : Prop :=
  ∀ (s : State) (r : BusRequest), s.busy = false → r.write = true → Permitted r.off.toNat r.size →
    WritableBuffer s.inCap r.off.toNat r.size →
    ∀ k, k < r.size → (hostAccess s r).mem.read (r.off.toNat + k) = laneByte r.wdata k

/-- R104, R111: an idle host write beyond the register page changes only the bytes of the access, and no register. -/
def Obligations.HostWriteTouchesOnlyItsBytes : Prop :=
  ∀ (s : State) (r : BusRequest), s.busy = false → r.write = true → 0x100 ≤ r.off.toNat →
    MemSameOutside r.off.toNat r.size s (hostAccess s r) ∧
    hostAccess s r = { s with mem := (hostAccess s r).mem, resp := (hostAccess s r).resp }

/-- R108, R111: an idle permitted host write to ERRCODE, CFG, OUT_LEN, RK_INFO, CAP, ID, a reserved offset of the register page,
CHAIN, RK, ROM, OUT or a reserved offset is ignored, with no error. -/
def Obligations.ReadOnlyIgnoresWrites : Prop :=
  ∀ (s : State) (r : BusRequest), s.busy = false → r.write = true → Permitted r.off.toNat r.size →
    s.inCap ≤ Config.inCapMax →
    ((r.off.toNat < 0x100 ∧ r.off ≠ 0x000 ∧ r.off ≠ 0x004 ∧ r.off ≠ 0x010 ∧ r.off ≠ 0x014 ∧ r.off ≠ 0x01C) ∨
      (0x160 ≤ r.off.toNat ∧ r.off.toNat < 0x10000) ∨ 0x10000 + s.inCap ≤ r.off.toNat) →
    hostAccess s r = { s with resp := some .ack }

/-- R108, R110, 10_state R60, R62: idle reads of CMD, KEY and the reserved offsets give 0. -/
def Obligations.UnreadableReadsZero : Prop :=
  ∀ (s : State) (r : BusRequest), s.busy = false → r.write = false → Permitted r.off.toNat r.size →
    (r.off = 0x000 ∨ (0x02C ≤ r.off.toNat ∧ r.off.toNat < 0x120) ∨ (0x180 ≤ r.off.toNat ∧ r.off.toNat < 0x200) ∨
      (0x3E0 ≤ r.off.toNat ∧ r.off.toNat < 0x1000) ∨ (0x1820 ≤ r.off.toNat ∧ r.off.toNat < 0x10000) ∨
      (0x10000 + s.inCap ≤ r.off.toNat ∧ r.off.toNat < 0x20000) ∨ 0x20000 + (s.inCap + 32) ≤ r.off.toNat) →
    hostAccess s r = { s with resp := some (.data 0) }

/-- R104, R110: an idle permitted read inside a readable buffer gives its bytes, byte o + k in lane k, the other lanes 0. -/
def Obligations.BufferReadLanes : Prop :=
  ∀ (s : State) (r : BusRequest), s.busy = false → r.write = false → Permitted r.off.toNat r.size →
    s.inCap ≤ Config.inCapMax → ReadableBuffer s.inCap r.off.toNat r.size →
    ∃ v, hostAccess s r = { s with resp := some (.data v) } ∧
      (∀ k, k < r.size → laneByte v k = s.mem.read (r.off.toNat + k)) ∧ ∀ k, r.size ≤ k → k < 4 → laneByte v k = 0

/-- 10_state R51: the bits of STATUS, and what a host write to it does, also while BUSY = 1. -/
def Obligations.StatusRegister : Prop :=
  ∀ s : State,
    s.statusWord.getLsbD 0 = s.busy ∧ s.statusWord.getLsbD 1 = s.done ∧
    (s.statusWord.getLsbD 2 = true ↔ s.errcodeWord ≠ 0) ∧ s.statusWord.getLsbD 3 = s.ovr ∧
    s.statusWord.getLsbD 4 = s.cfgValid ∧ s.statusWord.getLsbD 5 = s.rkValid ∧
    (∀ k, 6 ≤ k → s.statusWord.getLsbD k = false) ∧
    ∀ v : Word, hostAccess s { off := 0x004, write := true, size := 4, wdata := v } =
      { s with
        done := if v.getLsbD 1 then false else s.done
        ovr := if v.getLsbD 3 then false else s.ovr
        resp := some .ack }

/-- 10_state R51 to R59, R66: what idle reads of the registers give, STATUS as the word of StatusRegister, the others field by
field. -/
def Obligations.RegisterReads : Prop :=
  ∀ s : State, s.busy = false →
    let read := fun (o : BitVec 18) => (hostAccess s { off := o, write := false, size := 4, wdata := 0 }).resp
    read 0x004 = some (.data s.statusWord) ∧ read 0x008 = some (.data (BitVec.ofNat 32 s.errcode.code)) ∧
    read 0x00C = some (.data (BitVec.ofNat 32 (s.cfgMode.bit.toNat + 2 * s.cfgPad.code.toNat + 256 * s.cfgKlen.toNat))) ∧
    read 0x010 = some (.data (BitVec.ofNat 32 s.ie.toNat)) ∧ read 0x014 = some (.data s.inLen) ∧
    read 0x018 = some (.data s.outLen) ∧ read 0x01C = some (.data (BitVec.ofNat 32 s.ivLen.toNat)) ∧
    read 0x020 = some (.data (BitVec.ofNat 32 (s.rkBs.toNat + 256 * s.rkNr.toNat))) ∧
    read 0x024 = some (.data (BitVec.ofNat 32 s.inCap)) ∧ read 0x028 = some (.data 0x524A0007)

/-- 10_state R54, R55, R57, R85: a 4-byte write to CTRL keeps bit 0, also while BUSY = 1; idle 4-byte writes to IN_LEN and IV_LEN
keep all 32 bits and bits 7:0. -/
def Obligations.WritableRegisters : Prop :=
  ∀ (s : State) (v : Word),
    let write := fun (o : BitVec 18) => hostAccess s { off := o, write := true, size := 4, wdata := v }
    write 0x010 = { s with ie := v.getLsbD 0, resp := some .ack } ∧
    (s.busy = false → write 0x014 = { s with inLen := v, resp := some .ack } ∧
      write 0x01C = { s with ivLen := BitVec.ofNat 8 (v.toNat % 256), resp := some .ack })

/-- 40 R210, 10_state R74, R104: in every idle state, a one-byte read of ROM gives the table entry of its offset, and a wider
permitted read gives in each byte lane what the one-byte read of that byte gives, 0 in the lanes above. -/
def Obligations.RomReadsTables : Prop :=
  ∀ (s : State) (x : Byte) (j : Nat), s.busy = false →
    let read := fun (o : Nat) =>
      (hostAccess s { off := BitVec.ofNat 18 o, write := false, size := 1, wdata := 0 }).resp
    let byte := fun (b : Byte) => some (Response.data (b.setWidth 32))
    read (0x1000 + x.toNat) = byte (sbox x) ∧ read (0x1100 + x.toNat) = byte (invSbox x) ∧
    read (0x1200 + x.toNat) = byte (gfMul2 x) ∧ read (0x1300 + x.toNat) = byte (gfMul3 x) ∧
    read (0x1400 + x.toNat) = byte (gfMul9 x) ∧ read (0x1500 + x.toNat) = byte (gfMul11 x) ∧
    read (0x1600 + x.toNat) = byte (gfMul13 x) ∧ read (0x1700 + x.toNat) = byte (gfMul14 x) ∧
    (1 ≤ j → j ≤ 30 → read (0x1800 + j) = byte (rcon j)) ∧ read 0x1800 = byte 0 ∧ read 0x181F = byte 0 ∧
    ∀ (r : BusRequest), r.write = false → Permitted r.off.toNat r.size → romBase ≤ r.off.toNat →
      r.off.toNat + r.size ≤ romBase + 2080 →
      ∃ v, hostAccess s r = { s with resp := some (.data v) } ∧
        (∀ k, k < r.size → read (r.off.toNat + k) = byte (laneByte v k)) ∧ ∀ k, r.size ≤ k → k < 4 → laneByte v k = 0

/-- R62, R63, R540: no bus access shows KEY or CKEY. Two states that differ only in CKEY and the bytes of KEY answer every
request alike. -/
def Obligations.KeyIsNotReadable : Prop :=
  ∀ (s : State) (m : Memory) (k : Vector Byte 32) (r : BusRequest),
    (∀ x, x < keyBase ∨ keyBase + blockCap ≤ x → m.read x = s.mem.read x) →
    (hostAccess { s with mem := m, ckey := k } r).resp = (hostAccess s r).resp

/-- 60 R530: the interrupt line is DONE and IE; clearing DONE, clearing IE and issuing a command lower it; OVR does not raise it;
it is low after reset. -/
def Obligations.InterruptLine : Prop :=
  State.reset.irq = false ∧
  ∀ s : State,
    (s.irq = true ↔ s.done = true ∧ s.ie = true) ∧
    (∀ i t, exec i s = .next t → t.irq = s.ie) ∧
    (∀ v : Word, v.getLsbD 1 = true →
      (hostAccess s { off := 0x004, write := true, size := 4, wdata := v }).irq = false) ∧
    (∀ v : Word, v.getLsbD 0 = false →
      (hostAccess s { off := 0x010, write := true, size := 4, wdata := v }).irq = false) ∧
    (∀ v : Word, s.busy = false →
      (hostAccess s { off := 0x000, write := true, size := 4, wdata := v }).irq = false) ∧
    State.irq { s with ovr := true } = s.irq

/-! ## Reset (10_state R80, 70_reset R550 to R553) -/

/-- R80: the state after reset; every buffer byte and every byte of CKEY is its draw. -/
def Obligations.ResetValues : Prop :=
  State.reset.statusWord = 0 ∧ State.reset.errcodeWord = 0 ∧ State.reset.cfgWord = 0 ∧ State.reset.ctrlWord = 0 ∧
  State.reset.inLen = 0 ∧ State.reset.outLen = 0 ∧ State.reset.ivLen = 0 ∧ State.reset.rkInfoWord = 0 ∧
  State.reset.capWord = BitVec.ofNat 32 State.reset.inCap ∧ regWord State.reset 0x028 = 0x524A0007 ∧
  State.reset.seq = .idle ∧ State.reset.irq = false ∧ State.reset.rst = false ∧
  (∀ x, State.reset.mem.read x = Config.resetByte 0 x) ∧
  ∀ i, i < 32 → State.reset.ckeyByte i = Config.resetKeyByte 0 i

/-- R550, R553: when rst rises, also while a command is in flight, every register takes its reset value, the command is lost
with DONE = 0 and irq = 0, and every buffer byte and CKEY byte is drawn again; while rst = 1 nothing changes until it falls, a second rise is no edge, and a
bus access stops the model (log 7). -/
def Obligations.ResetEvent : Prop :=
  (∀ (s : State) (es : List HostEvent), s.rst = false → s.host = .rstRise :: es →
    (s.seq = .idle ∨ ∃ w k, s.seq = .executing w (k + 1)) →
    ∃ t, step s = .next t ∧ t.rst = true ∧ t.host = es ∧ t.seq = .idle ∧ t.statusWord = 0 ∧ t.errcodeWord = 0 ∧
      t.cfgWord = 0 ∧ t.ctrlWord = 0 ∧ t.inLen = 0 ∧ t.outLen = 0 ∧ t.ivLen = 0 ∧ t.rkInfoWord = 0 ∧ t.irq = false ∧
      t.inCap = s.inCap ∧ (∀ x, t.mem.read x = Config.resetByte (s.resets + 1) x) ∧
      ∀ i, i < 32 → t.ckeyByte i = Config.resetKeyByte (s.resets + 1) i) ∧
  ∀ s : State, s.rst = true →
    (s.host = [] → step s = .next s) ∧ (∀ es, s.host = .rstFall :: es → step s = .next { s with rst := false, host := es }) ∧
    (∀ es, s.host = .rstRise :: es → step s = .next { s with host := es }) ∧
    ∀ r es, s.host = .access r :: es → step s = .fault .accessInReset

/-! ## Tables and the field (40_rom_tables) -/

/-- R203: invSbox is the inverse of sbox on both sides. -/
def Obligations.SboxInverse : Prop :=
  (∀ x : Byte, invSbox (sbox x) = x) ∧ ∀ x : Byte, sbox (invSbox x) = x

/-- R202: sbox(x) is the affine map of the inverse of x in the field, and of 0 for x = 0. -/
def Obligations.SboxIsAffineOfInverse : Prop :=
  sbox 0 = affine 0 ∧
  ∀ x : Byte, x ≠ 0 → (∃ y, gfMul x y = 1) ∧ ∀ y, gfMul x y = 1 → sbox x = affine y

/-- R204, R205: the six tables are products by their constants, and rcon is the sequence of doublings from 1. -/
def Obligations.TablesAreFieldValues : Prop :=
  (∀ x : Byte, gfMul2 x = gfMul 2 x ∧ gfMul3 x = gfMul 3 x ∧ gfMul9 x = gfMul 9 x ∧ gfMul11 x = gfMul 11 x ∧
    gfMul13 x = gfMul 13 x ∧ gfMul14 x = gfMul 14 x) ∧
  rcon 1 = 0x01 ∧ ∀ j, 1 ≤ j → j < 30 → rcon (j + 1) = xtime (rcon j)

/-! ## Key schedule (41_key_schedule) -/

/-- R250, R251: the round counts, and the length of every schedule. -/
def Obligations.ScheduleLengths : Prop :=
  ∀ (key : Bytes) (bs : Nat), LegalSize key.length → LegalSize bs →
    roundCount key.length bs = max key.length bs / 4 + 6 ∧
    (expand key bs).length = bs * (roundCount key.length bs + 1) ∧ (expand key bs).length % 4 = 0 ∧
    (expand key bs).length ≤ 480

/-- R252 to R254, R262: the schedule starts with the key, has the length of R251, and every later word is the word keySize bytes
earlier xor the previous word, rotated, substituted and given rcon(off / ks) at multiples of the key size, only substituted at offset 16 of a 32-byte
key's blocks; no step beyond rcon(29) is used. -/
def Obligations.ExpandRecurrence : Prop :=
  ∀ (key : Bytes) (bs : Nat), LegalSize key.length → LegalSize bs →
    let w := fun i => (expand key bs).getD i 0
    let ks := key.length
    (expand key bs).take ks = key ∧ (expand key bs).length = bs * (roundCount ks bs + 1) ∧
    ∀ off, off % 4 = 0 → ks ≤ off → off < (expand key bs).length →
      (off % ks = 0 → off / ks ≤ 29 ∧
        w off = w (off - ks) ^^^ (sbox (w (off - 3)) ^^^ rcon (off / ks)) ∧
        w (off + 1) = w (off - ks + 1) ^^^ sbox (w (off - 2)) ∧
        w (off + 2) = w (off - ks + 2) ^^^ sbox (w (off - 1)) ∧
        w (off + 3) = w (off - ks + 3) ^^^ sbox (w (off - 4))) ∧
      (ks = 32 ∧ off % ks = 16 → ∀ j, j < 4 → w (off + j) = w (off - ks + j) ^^^ sbox (w (off - 4 + j))) ∧
      (off % ks ≠ 0 → ¬ (ks = 32 ∧ off % ks = 16) → ∀ j, j < 4 → w (off + j) = w (off - ks + j) ^^^ w (off - 4 + j))

/-- R265: KEY_EXPAND with a constructed cipher and a legal BS completes, writes the schedule of CKEY[0..KLEN) to RK, RK_INFO and
RK_VALID, and leaves the rest. -/
def Obligations.KeyExpandResult : Prop :=
  ∀ (s : State) (bs : Nat), s.cfgValid = true → LegalSize s.cfgKlen.toNat → LegalSize bs →
    ∃ t, exec (.keyExpand bs) s = .next t ∧ CompletedWith .ok t ∧
      t.mem.readBytes rkBase (scheduleLength s.cfgKlen.toNat bs) = expand s.cipherKey bs ∧
      t.rkValid = true ∧ t.rkBs.toNat = bs ∧ t.rkNr.toNat = roundCount s.cfgKlen.toNat bs ∧
      MemSameOutside rkBase (scheduleLength s.cfgKlen.toNat bs) s t ∧
      SlotSame s t ∧ LengthsSame s t ∧ ShellSame s t ∧ t.outLen = s.outLen ∧ t.rngDraws = s.rngDraws

/-! ## Round transforms (42_round_transforms) -/

/-- R301, R302, R320, R321: SUB_BYTES and INV_SUB_BYTES complete for every legal BS and look up each byte of STATE[0..BS). -/
def Obligations.SubstitutionResults : Prop :=
  ∀ (s : State) (bs : Nat), LegalSize bs →
    (∃ t, exec (.subBytes bs) s = .next t ∧ WroteOnlyState bs s t ∧
      ∀ i, i < bs → t.stateByte i = sbox (s.stateByte i)) ∧
    ∃ t, exec (.invSubBytes bs) s = .next t ∧ WroteOnlyState bs s t ∧
      ∀ i, i < bs → t.stateByte i = invSbox (s.stateByte i)

/-- R303, R305, R322, R323: SHIFT_ROWS rotates row r of STATE[0..BS) left by C_r, INV_SHIFT_ROWS puts every byte back. -/
def Obligations.ShiftRowsResults : Prop :=
  ∀ (s : State) (bs : Nat), LegalSize bs →
    let c := fun r => (if bs = 32 then [0, 1, 3, 4] else [0, 1, 2, 3]).getD r 0
    (∃ t, exec (.shiftRows bs) s = .next t ∧ WroteOnlyState bs s t ∧
      ∀ r col, r < 4 → col < bs / 4 →
        t.stateByte (r + 4 * col) = s.stateByte (r + 4 * ((col + c r) % (bs / 4)))) ∧
    ∃ t, exec (.invShiftRows bs) s = .next t ∧ WroteOnlyState bs s t ∧
      ∀ r col, r < 4 → col < bs / 4 →
        t.stateByte (r + 4 * ((col + c r) % (bs / 4))) = s.stateByte (r + 4 * col)

/-- R306, R307, R324, R325: MIX_COLUMNS and INV_MIX_COLUMNS complete for every legal BS and mix every column. -/
def Obligations.MixColumnsResults : Prop :=
  ∀ (s : State) (bs : Nat), LegalSize bs →
    let a := fun col k => s.stateByte (4 * col + k)
    (∃ t, exec (.mixColumns bs) s = .next t ∧ WroteOnlyState bs s t ∧
      ∀ col, col < bs / 4 →
        t.stateByte (4 * col) = gfMul2 (a col 0) ^^^ gfMul3 (a col 1) ^^^ a col 2 ^^^ a col 3 ∧
        t.stateByte (4 * col + 1) = a col 0 ^^^ gfMul2 (a col 1) ^^^ gfMul3 (a col 2) ^^^ a col 3 ∧
        t.stateByte (4 * col + 2) = a col 0 ^^^ a col 1 ^^^ gfMul2 (a col 2) ^^^ gfMul3 (a col 3) ∧
        t.stateByte (4 * col + 3) = gfMul3 (a col 0) ^^^ a col 1 ^^^ a col 2 ^^^ gfMul2 (a col 3)) ∧
    ∃ t, exec (.invMixColumns bs) s = .next t ∧ WroteOnlyState bs s t ∧
      ∀ col, col < bs / 4 →
        t.stateByte (4 * col) = gfMul14 (a col 0) ^^^ gfMul11 (a col 1) ^^^ gfMul13 (a col 2) ^^^ gfMul9 (a col 3) ∧
        t.stateByte (4 * col + 1) = gfMul9 (a col 0) ^^^ gfMul14 (a col 1) ^^^ gfMul11 (a col 2) ^^^ gfMul13 (a col 3) ∧
        t.stateByte (4 * col + 2) = gfMul13 (a col 0) ^^^ gfMul9 (a col 1) ^^^ gfMul14 (a col 2) ^^^ gfMul11 (a col 3) ∧
        t.stateByte (4 * col + 3) = gfMul11 (a col 0) ^^^ gfMul13 (a col 1) ^^^ gfMul9 (a col 2) ^^^ gfMul14 (a col 3)

/-- R310, R326: ADD_ROUND_KEY with a legal BS and a schedule for it that has round key ROUND completes and xors that round key
into STATE[0..BS). -/
def Obligations.AddRoundKeyResult : Prop :=
  ∀ (s : State) (bs round : Nat), LegalSize bs → s.rkValid = true → s.rkBs.toNat = bs → round ≤ s.rkNr.toNat →
    ∃ t, exec (.addRoundKey bs round) s = .next t ∧ WroteOnlyState bs s t ∧
      ∀ i, i < bs → t.stateByte i = s.stateByte i ^^^ s.rkByte (round * bs + i)

/-- R312, R313, R330, R332: ENC_BLOCK and DEC_BLOCK with a legal BS and a schedule for it complete and leave in STATE[0..BS) the
last of the rule's sequence of intermediate states. -/
def Obligations.BlockCommandResults : Prop :=
  ∀ (s : State) (bs : Nat), LegalSize bs → s.rkValid = true → s.rkBs.toNat = bs → 1 ≤ s.rkNr.toNat →
    let nr := s.rkNr.toNat
    let ark := fun (b : Bytes) (r : Nat) => addRoundKey b (s.roundKey bs r)
    (∃ t, exec (.encBlock bs) s = .next t ∧ WroteOnlyState bs s t ∧
      ∃ f : Nat → Bytes, f 0 = ark (s.stateBytes bs) 0 ∧
        (∀ r, 1 ≤ r → r < nr → f r = ark (mixColumns (shiftRows (subBytes (f (r - 1))))) r) ∧
        t.stateBytes bs = ark (shiftRows (subBytes (f (nr - 1)))) nr) ∧
    ∃ t, exec (.decBlock bs) s = .next t ∧ WroteOnlyState bs s t ∧
      ∃ g : Nat → Bytes, g nr = invSubBytes (invShiftRows (ark (s.stateBytes bs) nr)) ∧
        (∀ r, 1 ≤ r → r < nr → g r = invSubBytes (invShiftRows (invMixColumns (ark (g (r + 1)) r)))) ∧
        t.stateBytes bs = ark (g 1) 0

/-- R308: the inverse laws of the round steps, in both orders, for every state of a legal size. -/
def Obligations.RoundStepsInverse : Prop :=
  ∀ b : Bytes, LegalSize b.length →
    invSubBytes (subBytes b) = b ∧ subBytes (invSubBytes b) = b ∧
    invShiftRows (shiftRows b) = b ∧ shiftRows (invShiftRows b) = b ∧
    invMixColumns (mixColumns b) = b ∧ mixColumns (invMixColumns b) = b

/-- R314: for every supported key and block size, every key and every block, decBlock undoes encBlock under the same schedule. -/
def Obligations.BlockRoundTrip : Prop :=
  ∀ (key b : Bytes), LegalSize key.length → LegalSize b.length →
    let rk := roundKeyOf (expand key b.length) b.length
    let nr := roundCount key.length b.length
    decryptBlock rk nr (encryptBlock rk nr b) = b

/-- R332: ENC_BLOCK then DEC_BLOCK with the same BS and schedule completes twice and restores every byte of STATE. -/
def Obligations.EncThenDecBlockRestoresState : Prop :=
  ∀ (s : State) (bs : Nat), LegalSize bs → s.rkValid = true → s.rkBs.toNat = bs →
    ∃ t u, exec (.encBlock bs) s = .next t ∧ exec (.decBlock bs) t = .next u ∧ t.errcode = .ok ∧ u.errcode = .ok ∧
      MemSame s u

/-! ## Chaining (43_chaining) -/

/-- R350, R351: block by block, what chainEnc and chainDec give, and their last chain value. -/
def Obligations.ChainingBlocks : Prop :=
  ∀ (d w : Bytes) (bs nr : Nat) (iv : Bytes), LegalSize bs → d.length % bs = 0 → iv.length = bs →
    (∀ r, r ≤ nr → (roundKeyOf w bs r).length = bs) →
    let enc := encryptBlock (roundKeyOf w bs) nr
    let dec := decryptBlock (roundKeyOf w bs) nr
    let m := d.length / bs
    (∀ md, (chainEnc d w bs nr md iv).1.length = d.length ∧ (chainDec d w bs nr md iv).1.length = d.length) ∧
    (∀ i, i < m → blockOf (chainEnc d w bs nr .ecb iv).1 bs i = enc (blockOf d bs i) ∧
      blockOf (chainDec d w bs nr .ecb iv).1 bs i = dec (blockOf d bs i)) ∧
    (∀ i, i < m →
      let prev := fun (c : Bytes) => if i = 0 then iv else blockOf c bs (i - 1)
      blockOf (chainEnc d w bs nr .cbc iv).1 bs i =
        enc (xorBytes (blockOf d bs i) (prev (chainEnc d w bs nr .cbc iv).1)) ∧
      blockOf (chainDec d w bs nr .cbc iv).1 bs i = xorBytes (dec (blockOf d bs i)) (prev d)) ∧
    (chainEnc d w bs nr .cbc iv).2 = (if m = 0 then iv else blockOf (chainEnc d w bs nr .cbc iv).1 bs (m - 1)) ∧
    (chainDec d w bs nr .cbc iv).2 = (if m = 0 then iv else blockOf d bs (m - 1))

/-- R356: chainDec on the result of chainEnc returns the plaintext, and both return the same last value. -/
def Obligations.ChainRoundTrip : Prop :=
  ∀ (key p iv : Bytes) (bs : Nat) (md : Mode), LegalSize key.length → LegalSize bs → p.length % bs = 0 → iv.length = bs →
    let w := expand key bs
    let nr := roundCount key.length bs
    let c := chainEnc p w bs nr md iv
    chainDec c.1 w bs nr md iv = (p, c.2)

/-- R354, R355: in ECB equal plaintext blocks give equal ciphertext blocks; in CBC two plaintexts of equal length that agree on
blocks 0 to j-1 and differ in block j give ciphertexts that agree on blocks 0 to j-1 and differ in block j. -/
def Obligations.EcbDeterminismAndCbcDiffusion : Prop :=
  ∀ (key p q iv : Bytes) (bs : Nat), LegalSize key.length → LegalSize bs → p.length % bs = 0 → q.length = p.length →
    iv.length = bs →
    let w := expand key bs
    let nr := roundCount key.length bs
    let c := fun md d => (chainEnc d w bs nr md iv).1
    (∀ i j, i < p.length / bs → j < p.length / bs → blockOf p bs i = blockOf p bs j →
      blockOf (c .ecb p) bs i = blockOf (c .ecb p) bs j) ∧
    ∀ j, j < p.length / bs → (∀ i, i < j → blockOf p bs i = blockOf q bs i) → blockOf p bs j ≠ blockOf q bs j →
      (∀ i, i < j → blockOf (c .cbc p) bs i = blockOf (c .cbc q) bs i) ∧ blockOf (c .cbc p) bs j ≠ blockOf (c .cbc q) bs j

/-! ## Padding (44_padding) -/

/-- R410, R415, R420: PAD within IN_CAP (and aligned for None) completes; OUT is the input followed by the scheme's padding, and
nothing else is written. The ISO10126 filler is whatever the port gives (log 4). -/
def Obligations.PadResult : Prop :=
  ∀ (s : State) (p : Scheme) (bs : Nat), LegalSize bs → s.inCap ≤ Config.inCapMax → s.inLen.toNat ≤ s.inCap →
    (p = .none → s.inLen.toNat % bs = 0) →
    let len := s.inLen.toNat
    let n := bs - len % bs
    ∃ t, exec (.pad p bs) s = .next t ∧ CompletedWith .ok t ∧ (∀ i, i < len → t.outByte i = s.inByte i) ∧
      (p = .zero → len ≤ t.outLen.toNat ∧ t.outLen.toNat < len + bs ∧ t.outLen.toNat % bs = 0 ∧
        ∀ i, len ≤ i → i < t.outLen.toNat → t.outByte i = 0) ∧
      (p = .none → t.outLen = s.inLen) ∧
      (p = .pkcs7 → t.outLen.toNat = len + n ∧ ∀ i, len ≤ i → i < len + n → (t.outByte i).toNat = n) ∧
      (p = .ansix923 → t.outLen.toNat = len + n ∧ (∀ i, len ≤ i → i < len + n - 1 → t.outByte i = 0) ∧
        (t.outByte (len + n - 1)).toNat = n) ∧
      (p = .iso10126 → t.outLen.toNat = len + n ∧ (∀ k, k < n - 1 → t.outByte (len + k) = Config.rngByte (s.rngDraws + k)) ∧
        (t.outByte (len + n - 1)).toNat = n) ∧
      t.rngDraws = s.rngDraws + (if p = .iso10126 then n - 1 else 0) ∧
      MemSameOutside outBase t.outLen.toNat s t ∧ SlotSame s t ∧ ScheduleRegsSame s t ∧ LengthsSame s t ∧ ShellSame s t

/-- R411, R422: UNPAD within IN_CAP (and aligned for None) either copies the kept bytes to OUT, with the kept length of the
scheme, and writes nothing else, or, for a counted scheme whose input is empty or shorter than its last byte, fails with
InvalidPadding. -/
def Obligations.UnpadResult : Prop :=
  ∀ (s : State) (p : Scheme) (bs : Nat), LegalSize bs → s.inCap ≤ Config.inCapMax → s.inLen.toNat ≤ s.inCap →
    (p = .none → s.inLen.toNat % bs = 0) →
    let len := s.inLen.toNat
    let count := (s.inByte (len - 1)).toNat
    let counted := p = .pkcs7 ∨ p = .ansix923 ∨ p = .iso10126
    (counted → len = 0 ∨ len < count → ∃ t, exec (.unpad p bs) s = .next t ∧ FailedWith .invalidPadding s t) ∧
    (¬ (counted ∧ (len = 0 ∨ len < count)) →
      ∃ t, exec (.unpad p bs) s = .next t ∧ CompletedWith .ok t ∧ (∀ i, i < t.outLen.toNat → t.outByte i = s.inByte i) ∧
        (counted → t.outLen.toNat = len - count) ∧ (p = .none → t.outLen = s.inLen) ∧
        (p = .zero → t.outLen.toNat ≤ len ∧ len - t.outLen.toNat ≤ bs ∧
          (∀ i, t.outLen.toNat ≤ i → i < len → s.inByte i = 0) ∧
          (t.outLen = 0 ∨ len - t.outLen.toNat = bs ∨ s.inByte (t.outLen.toNat - 1) ≠ 0)) ∧
        MemSameOutside outBase t.outLen.toNat s t ∧ SlotSame s t ∧ ScheduleRegsSame s t ∧ LengthsSame s t ∧ ShellSame s t ∧
        t.rngDraws = s.rngDraws)

/-- R413: unpad undoes pad: for the counted schemes for every data and filler, for Zero for data that is empty or does not end in
0x00, for None for aligned data. -/
def Obligations.PaddingRoundTrip : Prop :=
  ∀ (d : Bytes) (bs : Nat) (filler : Nat → Byte), LegalSize bs →
    (∀ p, p = .pkcs7 ∨ p = .ansix923 ∨ p = .iso10126 → unpadBytes (padBytes d bs filler p) bs p = some d) ∧
    (d.getLast? ≠ some 0 → unpadBytes (padBytes d bs filler .zero) bs .zero = some d) ∧
    (d.length % bs = 0 → unpadBytes (padBytes d bs filler .none) bs .none = some d)

/-! ## ENCRYPT and DECRYPT (43_chaining R352, R360, R362, R364) -/

/-- R360: ENCRYPT with a constructed cipher, a legal BS, an input within IN_CAP, IV_LEN = BS in CBC and an aligned input for None
completes: OUT is the chained encryption of the padded input, RK, RK_INFO and RK_VALID the fresh schedule, CHAIN in CBC the last
value, and nothing else is written. -/
def Obligations.EncryptResult : Prop :=
  ∀ (s : State) (bs : Nat), s.Inv → s.cfgValid = true → LegalSize bs → s.inLen.toNat ≤ s.inCap →
    (s.cfgMode = .cbc → s.ivLen.toNat = bs) → (s.cfgPad = .none → s.inLen.toNat % bs = 0) →
    let w := expand s.cipherKey bs
    let nr := roundCount s.cfgKlen.toNat bs
    let p := padBytes s.inData bs s.filler s.cfgPad
    let r := chainEnc p w bs nr s.cfgMode (s.ivBytes bs)
    ∃ t, exec (.encrypt bs) s = .next t ∧ CompletedWith .ok t ∧ t.outLen.toNat = p.length ∧ t.outData = r.1 ∧
      t.mem.readBytes rkBase w.length = w ∧ t.rkValid = true ∧ t.rkBs.toNat = bs ∧ t.rkNr.toNat = nr ∧
      (s.cfgMode = .cbc → t.mem.readBytes chainBase bs = r.2) ∧
      (∀ x, (x < rkBase ∨ rkBase + w.length ≤ x) → (x < outBase ∨ outBase + p.length ≤ x) →
        (s.cfgMode = .cbc → x < chainBase ∨ chainBase + bs ≤ x) → t.mem.read x = s.mem.read x) ∧
      SlotSame s t ∧ LengthsSame s t ∧ ShellSame s t ∧ t.rngDraws = s.rngDraws + fillerCount s.inLen.toNat bs s.cfgPad

/-- R362: DECRYPT with a constructed cipher, a legal BS, an aligned input within IN_CAP, IV_LEN = BS in CBC and removable padding
completes: OUT is the unpadded chained decryption, the schedule and CHAIN as for ENCRYPT, and nothing else is written. -/
def Obligations.DecryptResult : Prop :=
  ∀ (s : State) (bs : Nat) (u : Bytes), s.Inv → s.cfgValid = true → LegalSize bs → s.inLen.toNat ≤ s.inCap →
    (s.cfgMode = .cbc → s.ivLen.toNat = bs) → s.inLen.toNat % bs = 0 →
    let w := expand s.cipherKey bs
    let nr := roundCount s.cfgKlen.toNat bs
    let r := chainDec s.inData w bs nr s.cfgMode (s.ivBytes bs)
    unpadBytes r.1 bs s.cfgPad = some u →
    ∃ t, exec (.decrypt bs) s = .next t ∧ CompletedWith .ok t ∧ t.outLen.toNat = u.length ∧ t.outData = u ∧
      t.mem.readBytes rkBase w.length = w ∧ t.rkValid = true ∧ t.rkBs.toNat = bs ∧ t.rkNr.toNat = nr ∧
      (s.cfgMode = .cbc → t.mem.readBytes chainBase bs = r.2) ∧
      (∀ x, (x < rkBase ∨ rkBase + w.length ≤ x) → (x < outBase ∨ outBase + u.length ≤ x) →
        (s.cfgMode = .cbc → x < chainBase ∨ chainBase + bs ≤ x) → t.mem.read x = s.mem.read x) ∧
      SlotSame s t ∧ LengthsSame s t ∧ ShellSame s t ∧ t.rngDraws = s.rngDraws

/-- R356, R413, R360, R362: what ENCRYPT gives, put back into IN, DECRYPT of the same cipher, BS and IV turns into the message
again, for every padding but Zero on a message that ends in 0x00. -/
def Obligations.EncryptThenDecryptRestoresMessage : Prop :=
  ∀ (s t u : State) (bs : Nat), s.Inv → s.cfgValid = true → LegalSize bs →
    exec (.encrypt bs) s = .next t → t.errcode = .ok → (s.cfgPad = .zero → s.inData.getLast? ≠ some 0) →
    SlotSame t u → u.inCap = t.inCap → u.inLen = t.outLen → u.inLen.toNat ≤ u.inCap → u.inData = t.outData →
    u.ivLen = t.ivLen → (∀ k, k < bs → u.mem.read (ivBase + k) = t.mem.read (ivBase + k)) →
    ∃ v, exec (.decrypt bs) u = .next v ∧ v.errcode = .ok ∧ v.outLen = s.inLen ∧ v.outData = s.inData

/-- R364, R72: the results of ENCRYPT and DECRYPT, the code, OUT_LEN and, without an error, OUT, RK, RK_INFO, RK_VALID and in CBC
CHAIN, depend only on CKEY[0..KLEN), CFG, IN[0..IN_LEN), IN_LEN, BS, in CBC IV[0..BS) and IV_LEN, and on the random-byte port.
For RK and CHAIN the constructed KLEN is a legal size, as InvariantKept keeps it. -/
def Obligations.CipherDependsOnlyOnOperands : Prop :=
  ∀ (s s' t t' : State) (bs : Nat) (i : Instr), i = .encrypt bs ∨ i = .decrypt bs →
    s'.cfgValid = s.cfgValid → s'.cfgMode = s.cfgMode → s'.cfgPad = s.cfgPad → s'.cfgKlen = s.cfgKlen →
    (∀ k, k < s.cfgKlen.toNat → s'.ckeyByte k = s.ckeyByte k) → s'.inCap = s.inCap → s'.inLen = s.inLen →
    (∀ k, k < s.inLen.toNat → s'.inByte k = s.inByte k) → s'.rngDraws = s.rngDraws →
    (s.cfgMode = .cbc → s'.ivLen = s.ivLen ∧ ∀ k, k < bs → s'.mem.read (ivBase + k) = s.mem.read (ivBase + k)) →
    exec i s = .next t → exec i s' = .next t' →
    t'.errcode = t.errcode ∧ t'.outLen = t.outLen ∧
    (t.errcode = .ok → t'.outData = t.outData ∧ t'.rkInfoWord = t.rkInfoWord ∧ t'.rkValid = t.rkValid ∧
      (LegalSize s.cfgKlen.toNat →
        (∀ k, k < scheduleLength s.cfgKlen.toNat bs → t'.rkByte k = t.rkByte k) ∧
        (s.cfgMode = .cbc → ∀ k, k < bs → t'.chainByte k = t.chainByte k)))

/-! ## Control commands (45_control) -/

/-- R450, R456: NOP completes and changes nothing but the bookkeeping; ZEROIZE completes, clears every buffer byte, CKEY, the
slot, the schedule registers and the lengths, and leaves the rest. -/
def Obligations.NopAndZeroizeResults : Prop :=
  ∀ s : State,
    (∃ t, exec .nop s = .next t ∧ CompletedWith .ok t ∧ MemSame s t ∧ SlotSame s t ∧ ScheduleRegsSame s t ∧
      LengthsSame s t ∧ ShellSame s t ∧ t.outLen = s.outLen ∧ t.rngDraws = s.rngDraws) ∧
    ∃ t, exec .zeroize s = .next t ∧ CompletedWith .ok t ∧ (∀ x, t.mem.read x = 0) ∧ (∀ i, t.ckeyByte i = 0) ∧
      t.cfgWord = 0 ∧ t.cfgValid = false ∧ t.rkValid = false ∧ t.rkInfoWord = 0 ∧ t.inLen = 0 ∧ t.ivLen = 0 ∧ t.outLen = 0 ∧
      ShellSame s t ∧ t.rngDraws = s.rngDraws

/-- R452: CONSTRUCT with a legal KLEN completes and fills the slot from KEY[0..KLEN), CKEY[KLEN..32) unchanged; with another KLEN
it fails with InvalidKeySize and empties the slot. Both clear RK_VALID and RK_INFO; neither touches a buffer. -/
def Obligations.ConstructResults : Prop :=
  ∀ (s : State) (md : Mode) (p : Scheme) (klen : Nat),
    (LegalSize klen → ∃ t, exec (.construct md p klen) s = .next t ∧ CompletedWith .ok t ∧
      (∀ i, i < klen → t.ckeyByte i = s.mem.read (keyBase + i)) ∧ (∀ i, klen ≤ i → t.ckeyByte i = s.ckeyByte i) ∧
      t.cfgMode = md ∧ t.cfgPad = p ∧ t.cfgKlen.toNat = klen ∧ t.cfgValid = true ∧ t.rkValid = false ∧ t.rkInfoWord = 0 ∧
      MemSame s t ∧ LengthsSame s t ∧ ShellSame s t ∧ t.outLen = s.outLen ∧ t.rngDraws = s.rngDraws) ∧
    (¬ LegalSize klen → ∃ t, exec (.construct md p klen) s = .next t ∧ CompletedWith .invalidKeySize t ∧
      t.cfgWord = 0 ∧ t.cfgValid = false ∧ t.rkValid = false ∧ t.rkInfoWord = 0 ∧ t.ckey = s.ckey ∧ t.outLen = 0 ∧
      MemSame s t ∧ LengthsSame s t ∧ ShellSame s t ∧ t.rngDraws = s.rngDraws)

/-! ## Errors (60_exceptions) -/

/-- R509: a completion step reports the first applicable error in the order of the rule, IllegalCommand first, or none. -/
def Obligations.ErrorPriority : Prop :=
  ∀ (s : State) (w : Word), s.rst = false → s.seq = .executing w 0 →
    ∃ t, step s = .next t ∧
      (∀ e, decode w = .error e → t.errcode = .illegalCommand) ∧
      ∀ i, decode w = .ok i → t.errcode = firstError (checksOf s i)

/-- R522: every command that completes with a non-zero code writes OUT_LEN <- 0 and no other state, OUT's bytes included, but for
CONSTRUCT's InvalidKeySize effects on the slot and the schedule registers. -/
def Obligations.FailureWritesNothingElse : Prop :=
  ∀ (s t : State) (w : Word), s.rst = false → s.seq = .executing w 0 → step s = .next t → t.errcode ≠ .ok →
    ((∀ md p k, decode w ≠ .ok (.construct md p k)) → FailedWith t.errcode s t) ∧
    (∀ md p k, decode w = .ok (.construct md p k) → t.errcode = .invalidKeySize ∧ t.outLen = 0 ∧ MemSame s t ∧
      t.ckey = s.ckey ∧ LengthsSame s t ∧ ShellSame s t)

/-- 10_state R76: which state each command may write; everything a column denies a command is as before. -/
def Obligations.WriteMatrix : Prop :=
  ∀ (i : Instr) (s t : State), s.Inv → exec i s = .next t → i ≠ .zeroize →
    -- KEY, IV, IN, IN_LEN, IV_LEN: no command but ZEROIZE
    (BytesSame keyBase stateBase s t ∧ BytesSame inBase outBase s t ∧ LengthsSame s t ∧ ShellSame s t) ∧
    -- STATE[BS..32): no command but ZEROIZE; STATE[0..BS): the single-block commands
    (∀ bs, i.blockSize? = some bs → BytesSame (stateBase + bs) chainBase s t) ∧
    ((i = .nop ∨ (∃ md p k, i = .construct md p k) ∨ (∃ bs, i = .keyExpand bs ∨ i = .encrypt bs ∨ i = .decrypt bs) ∨
        ∃ p bs, i = .pad p bs ∨ i = .unpad p bs) → BytesSame stateBase chainBase s t) ∧
    -- CHAIN: CBC ENCRYPT and DECRYPT, its bytes [0..BS) only
    ((∀ bs, i ≠ .encrypt bs ∧ i ≠ .decrypt bs) ∨ s.cfgMode = .ecb → BytesSame chainBase rkBase s t) ∧
    (∀ bs, i.blockSize? = some bs → BytesSame (chainBase + bs) rkBase s t) ∧
    -- RK: KEY_EXPAND, ENCRYPT, DECRYPT; its registers also CONSTRUCT
    ((∀ bs, i ≠ .keyExpand bs ∧ i ≠ .encrypt bs ∧ i ≠ .decrypt bs) → BytesSame rkBase romBase s t ∧
      ((∀ md p k, i ≠ .construct md p k) → ScheduleRegsSame s t)) ∧
    -- OUT: ENCRYPT, DECRYPT, PAD, UNPAD; OUT_LEN also every failing command
    ((∀ bs, i ≠ .encrypt bs ∧ i ≠ .decrypt bs) → (∀ p bs, i ≠ .pad p bs ∧ i ≠ .unpad p bs) →
      (∀ x, outBase ≤ x → t.mem.read x = s.mem.read x) ∧ (t.errcode = .ok → t.outLen = s.outLen)) ∧
    -- CFG, CFG_VALID, CKEY: CONSTRUCT
    ((∀ md p k, i ≠ .construct md p k) → SlotSame s t)

/-! ## Invariants -/

/-- R63: in every step, CKEY changes only by a completing CONSTRUCT or ZEROIZE, or by a reset. -/
def Obligations.CkeyChangesOnlyByConstructZeroizeReset : Prop :=
  ∀ s t : State, step s = .next t → t.ckey ≠ s.ckey →
    (∃ es, s.host = .rstRise :: es) ∨
    ∃ w, s.seq = .executing w 0 ∧ (decode w = .ok .zeroize ∨ ∃ md p k, decode w = .ok (.construct md p k))

/-- The invariant of the block holds after reset. -/
def Obligations.InvariantAtReset : Prop := State.reset.Inv

/-- The invariant of the block is kept by every step: the memory stays canonical and inside the buffers; CFG and CFG_VALID, RK_INFO
and RK_VALID agree; while RK_VALID = 1, RK holds the schedule of the constructed key; BUSY excludes DONE and an error; an error
leaves no result; a result fits OUT. -/
def Obligations.InvariantKept : Prop :=
  ∀ s t : State, s.Inv → step s = .next t → t.Inv
end

