-- ==== Sys2Proof/Laws/Encode.lean ====
section
/-! SUPPORT. The bits of an encoded word, format by format (30_encoding R151 to R155): one lemma per encoder. -/

namespace Sys2Proof

theorem getLsbD_encodeN (op : Byte) (k : Nat) : (encodeN op).getLsbD k = if k < 8 then op.getLsbD k else false := by
  have h1 := BitVec.getLsbD_append (x := (0 : BitVec 24)) (y := op) (i := k)
  refine Eq.trans h1 ?_
  simp

theorem getLsbD_encodeB (op : Byte) (bs k : Nat) : (encodeB op bs).getLsbD k =
    if k < 8 then op.getLsbD k else if k - 8 < 8 then (BitVec.ofNat 8 bs).getLsbD (k - 8) else false := by
  have h1 := BitVec.getLsbD_append (x := (0 : BitVec 16) ++ BitVec.ofNat 8 bs) (y := op) (i := k)
  have h2 := BitVec.getLsbD_append (x := (0 : BitVec 16)) (y := BitVec.ofNat 8 bs) (i := k - 8)
  rw [h2] at h1
  refine Eq.trans h1 ?_
  simp

theorem getLsbD_encodeR (op : Byte) (bs r k : Nat) : (encodeR op bs r).getLsbD k =
    if k < 8 then op.getLsbD k else if k - 8 < 8 then (BitVec.ofNat 8 bs).getLsbD (k - 8)
    else if k - 16 < 4 then (BitVec.ofNat 4 r).getLsbD (k - 16) else false := by
  have h1 := BitVec.getLsbD_append (x := (0 : BitVec 12) ++ BitVec.ofNat 4 r ++ BitVec.ofNat 8 bs) (y := op) (i := k)
  have h2 := BitVec.getLsbD_append (x := (0 : BitVec 12) ++ BitVec.ofNat 4 r) (y := BitVec.ofNat 8 bs) (i := k - 8)
  have h3 := BitVec.getLsbD_append (x := (0 : BitVec 12)) (y := BitVec.ofNat 4 r) (i := k - 8 - 8)
  rw [h3] at h2
  rw [h2] at h1
  refine Eq.trans h1 ?_
  simp [Nat.sub_sub]

theorem getLsbD_encodeP (op : Byte) (p : Scheme) (bs k : Nat) : (encodeP op p bs).getLsbD k =
    if k < 8 then op.getLsbD k else if k - 8 < 8 then (BitVec.ofNat 8 bs).getLsbD (k - 8)
    else if k - 16 < 3 then p.code.getLsbD (k - 16) else false := by
  have h1 := BitVec.getLsbD_append (x := (0 : BitVec 13) ++ p.code ++ BitVec.ofNat 8 bs) (y := op) (i := k)
  have h2 := BitVec.getLsbD_append (x := (0 : BitVec 13) ++ p.code) (y := BitVec.ofNat 8 bs) (i := k - 8)
  have h3 := BitVec.getLsbD_append (x := (0 : BitVec 13)) (y := p.code) (i := k - 8 - 8)
  rw [h3] at h2
  rw [h2] at h1
  refine Eq.trans h1 ?_
  simp [Nat.sub_sub]

theorem getLsbD_encodeK (op : Byte) (m : Mode) (p : Scheme) (klen k : Nat) : (encodeK op m p klen).getLsbD k =
    if k < 8 then op.getLsbD k else if k - 8 < 1 then m.bit.getLsbD (k - 8)
    else if k - 9 < 3 then p.code.getLsbD (k - 9) else if k - 12 < 4 then false
    else if k - 16 < 8 then (BitVec.ofNat 8 klen).getLsbD (k - 16) else false := by
  have h1 := BitVec.getLsbD_append
    (x := (0 : BitVec 8) ++ BitVec.ofNat 8 klen ++ (0 : BitVec 4) ++ p.code ++ m.bit) (y := op) (i := k)
  have h2 := BitVec.getLsbD_append
    (x := (0 : BitVec 8) ++ BitVec.ofNat 8 klen ++ (0 : BitVec 4) ++ p.code) (y := m.bit) (i := k - 8)
  have h3 := BitVec.getLsbD_append
    (x := (0 : BitVec 8) ++ BitVec.ofNat 8 klen ++ (0 : BitVec 4)) (y := p.code) (i := k - 8 - 1)
  have h4 := BitVec.getLsbD_append (x := (0 : BitVec 8) ++ BitVec.ofNat 8 klen) (y := (0 : BitVec 4)) (i := k - 8 - 1 - 3)
  have h5 := BitVec.getLsbD_append (x := (0 : BitVec 8)) (y := BitVec.ofNat 8 klen) (i := k - 8 - 1 - 3 - 4)
  rw [h5] at h4
  rw [h4] at h3
  rw [h3] at h2
  rw [h2] at h1
  refine Eq.trans h1 ?_
  simp [Nat.sub_sub]

end Sys2Proof
end

