-- ==== Sys2Proof/Laws/Memory.lean ====
section
/-! SUPPORT. The laws of the byte memory: a read after a write, wide reads and writes, and the canonical form, which every
memory operation keeps. The read laws hold of every memory, canonical or not. -/

namespace Sys2Proof.Machine

theorem lookupCell_insertCell (a v x : _) (cs : List Host.Cell) :
    lookupCell (insertCell a v cs) x = if x = a then some v else lookupCell cs x := by
  induction cs with
  | nil => simp [insertCell, lookupCell, eq_comm]
  | cons c cs ih =>
    obtain ⟨b, w⟩ := c
    by_cases h1 : a < b
    · simp [insertCell, h1, lookupCell, eq_comm]
    · by_cases h2 : a = b
      · subst h2; by_cases h3 : a = x
        · simp [insertCell, lookupCell, h3]
        · simp [insertCell, lookupCell, h3, Ne.symm h3]
      · by_cases h3 : b = x
        · subst h3; simp [insertCell, h1, h2, lookupCell, Ne.symm h2]
        · simp [insertCell, h1, h2, lookupCell, h3, ih]

theorem lookupCell_eraseCell (a x : Nat) (cs : List Host.Cell) :
    lookupCell (eraseCell a cs) x = if x = a then Option.none else lookupCell cs x := by
  induction cs with
  | nil => simp [eraseCell, lookupCell]
  | cons c cs ih =>
    obtain ⟨b, w⟩ := c
    by_cases h1 : b = a
    · subst h1; by_cases h2 : x = b
      · subst h2; simpa [eraseCell] using ih
      · simp [eraseCell, ih, h2, lookupCell, Ne.symm h2]
    · by_cases h2 : b = x
      · subst h2; simp [eraseCell, h1, lookupCell]
      · simp [eraseCell, h1, lookupCell, h2, ih]

theorem Memory.write_fill (m : Memory) (a : Nat) (v : Byte) : (m.write a v).fill = m.fill := by
  unfold Memory.write; split <;> rfl

theorem Memory.unlisted_congr {m m' : Memory} (h : m'.fill = m.fill) (a : Nat) : m'.unlisted a = m.unlisted a := by
  unfold Memory.unlisted; rw [h]

/-- A read after a one-byte write. -/
theorem Memory.read_write (m : Memory) (a : Nat) (v : Byte) (x : Nat) :
    (m.write a v).read x = if x = a then v else m.read x := by
  have hu := Memory.unlisted_congr (m.write_fill a v) x
  unfold Memory.read
  rw [hu]
  unfold Memory.write
  split
  · next h => by_cases hx : x = a <;> simp [lookupCell_eraseCell, hx, h]
  · by_cases hx : x = a <;> simp [lookupCell_insertCell, hx]

theorem Memory.writeBytes_fill (m : Memory) (a : Nat) (bs : Bytes) : (m.writeBytes a bs).fill = m.fill := by
  induction bs generalizing m a with
  | nil => rfl
  | cons b bs ih => rw [Memory.writeBytes, ih, Memory.write_fill]

/-- A read after a wide write: inside, the byte written; outside, as before. -/
theorem Memory.read_writeBytes (m : Memory) (a : Nat) (bs : Bytes) (x : Nat) :
    (m.writeBytes a bs).read x = if a ≤ x ∧ x < a + bs.length then bs.getD (x - a) 0 else m.read x := by
  induction bs generalizing m a with
  | nil => simp [Memory.writeBytes]
  | cons b bs ih =>
    rw [Memory.writeBytes, ih, Memory.read_write]
    by_cases h1 : x = a
    · subst h1; simp
    · by_cases h2 : a + 1 ≤ x ∧ x < a + 1 + bs.length
      · rw [if_pos h2, if_pos (by simp; omega)]
        obtain ⟨k, rfl⟩ : ∃ k, x = a + 1 + k := ⟨x - (a + 1), by omega⟩
        have e1 : a + 1 + k - (a + 1) = k := by omega
        have e2 : a + 1 + k - a = k + 1 := by omega
        rw [e1, e2]; simp
      · rw [if_neg h2, if_neg h1, if_neg (by simp; omega)]

theorem Memory.read_writeBytes_outside (m : Memory) {a x : Nat} {bs : Bytes} (h : x < a ∨ a + bs.length ≤ x) :
    (m.writeBytes a bs).read x = m.read x := by
  rw [Memory.read_writeBytes, if_neg (by omega)]

theorem Memory.read_writeBytes_inside (m : Memory) (a : Nat) {bs : Bytes} {k : Nat} (h : k < bs.length) :
    (m.writeBytes a bs).read (a + k) = bs.getD k 0 := by
  rw [Memory.read_writeBytes, if_pos (by omega)]; simp

@[simp] theorem Memory.length_readBytes (m : Memory) (a n : Nat) : (m.readBytes a n).length = n := by
  simp [Memory.readBytes]

theorem Memory.getD_readBytes (m : Memory) (a : Nat) {n k : Nat} (h : k < n) :
    (m.readBytes a n).getD k 0 = m.read (a + k) := by
  simp [Memory.readBytes, h]

/-- Two wide reads agree where the bytes do. -/
theorem Memory.readBytes_congr {m m' : Memory} {a a' n : Nat} (h : ∀ k, k < n → m'.read (a' + k) = m.read (a + k)) :
    m'.readBytes a' n = m.readBytes a n := by
  simp only [Memory.readBytes]
  exact List.map_congr_left fun k hk => h k (List.mem_range.mp hk)

/-- A wide read of what was just written. -/
theorem Memory.readBytes_writeBytes (m : Memory) (a : Nat) (bs : Bytes) :
    (m.writeBytes a bs).readBytes a bs.length = bs := by
  apply List.ext_getElem (by simp)
  intro k h1 h2
  have hr := Memory.read_writeBytes_inside m a h2
  simp only [Memory.readBytes, List.getElem_map, List.getElem_range]
  rw [hr]; simp [h2]

/-! ## The canonical form -/

theorem risingAbove_weaken {b c : Nat} (h : c ≤ b) {cs : List Host.Cell} (hr : risingAbove (some b) cs = true) :
    risingAbove (some c) cs = true := by
  cases cs with
  | nil => rfl
  | cons x xs => simp [risingAbove] at hr ⊢; exact ⟨by omega, hr.2⟩

theorem risingAbove_none {b : Nat} {cs : List Host.Cell} (hr : risingAbove (some b) cs = true) :
    risingAbove Option.none cs = true := by
  cases cs with
  | nil => rfl
  | cons x xs => simp [risingAbove] at hr ⊢; exact hr.2

theorem risingAbove_insertCell (o : Option Nat) (a : Nat) (v : Byte) {cs : List Host.Cell}
    (ho : ∀ b, o = some b → b < a) (hr : risingAbove o cs = true) : risingAbove o (insertCell a v cs) = true := by
  induction cs generalizing o with
  | nil => cases o with
    | none => rfl
    | some b => simp [insertCell, risingAbove, ho b rfl]
  | cons c cs ih =>
    obtain ⟨b, w⟩ := c
    have htail : risingAbove (some b) cs = true := by cases o <;> simp_all [risingAbove]
    have hhead : ∀ d, o = some d → d < b := by rintro d rfl; simp_all [risingAbove]
    by_cases h1 : a < b
    · cases o with
      | none => simp [insertCell, h1, risingAbove, htail]
      | some d => simp [insertCell, h1, risingAbove, htail, ho d rfl]
    · by_cases h2 : a = b
      · subst h2
        cases o with
        | none => simp [insertCell, risingAbove, htail]
        | some d => simp [insertCell, risingAbove, htail, ho d rfl]
      · have := ih (some b) (by rintro d hd; cases hd; omega) htail
        cases o with
        | none => simp [insertCell, h1, h2, risingAbove, this]
        | some d => simp [insertCell, h1, h2, risingAbove, this, hhead d rfl]

theorem risingAbove_eraseCell (o : Option Nat) (a : Nat) {cs : List Host.Cell} (hr : risingAbove o cs = true) :
    risingAbove o (eraseCell a cs) = true := by
  induction cs generalizing o with
  | nil => simpa [eraseCell] using hr
  | cons c cs ih =>
    obtain ⟨b, w⟩ := c
    have htail : risingAbove (some b) cs = true := by cases o <;> simp_all [risingAbove]
    have hhead : ∀ d, o = some d → d < b := by rintro d rfl; simp_all [risingAbove]
    by_cases h1 : b = a
    · simp only [eraseCell, h1, if_true]
      refine ih o ?_
      cases o with
      | none => exact risingAbove_none htail
      | some d => exact risingAbove_weaken (Nat.le_of_lt (hhead d rfl)) htail
    · have := ih (some b) htail
      cases o with
      | none => simp [eraseCell, h1, risingAbove, this]
      | some d => simp [eraseCell, h1, risingAbove, this, hhead d rfl]

theorem mem_insertCell {a : Nat} {v : Byte} {cs : List Host.Cell} {c : Host.Cell} (h : c ∈ insertCell a v cs) :
    c = (a, v) ∨ c ∈ cs := by
  induction cs with
  | nil => simpa [insertCell] using h
  | cons d cs ih =>
    obtain ⟨b, w⟩ := d
    simp only [insertCell] at h
    split at h
    · simpa using h
    · split at h
      · simp at h; tauto
      · rcases List.mem_cons.mp h with h | h
        · right; simp [h]
        · rcases ih h with h | h <;> simp [h]

theorem mem_eraseCell {a : Nat} {cs : List Host.Cell} {c : Host.Cell} (h : c ∈ eraseCell a cs) : c ∈ cs := by
  induction cs with
  | nil => simp [eraseCell] at h
  | cons d cs ih =>
    simp only [eraseCell] at h
    split at h
    · exact List.mem_cons_of_mem _ (ih h)
    · rcases List.mem_cons.mp h with h | h
      · simp [h]
      · exact List.mem_cons_of_mem _ (ih h)

/-- A one-byte write keeps the canonical form. -/
theorem Memory.wf_write {m : Memory} (h : m.wf = true) (a : Nat) (v : Byte) : (m.write a v).wf = true := by
  simp only [Memory.wf, Bool.and_eq_true, List.all_eq_true, decide_eq_true_eq] at h ⊢
  unfold Memory.write
  split
  · exact ⟨risingAbove_eraseCell _ _ h.1, fun c hc => h.2 c (mem_eraseCell hc)⟩
  · next hv =>
    refine ⟨risingAbove_insertCell _ _ _ (by simp) h.1, fun c hc => ?_⟩
    rcases mem_insertCell hc with rfl | hc
    · exact hv
    · exact h.2 c hc

/-- A wide write keeps the canonical form. -/
theorem Memory.wf_writeBytes {m : Memory} (h : m.wf = true) (a : Nat) (bs : Bytes) : (m.writeBytes a bs).wf = true := by
  induction bs generalizing m a with
  | nil => exact h
  | cons b bs ih => exact ih (Memory.wf_write h a b) _

theorem Memory.wf_zeroed : Memory.zeroed.wf = true := rfl

/-- A freshly drawn memory is canonical. -/
theorem Memory.wf_drawn (n : Nat) : Memory.wf { fill := .drawn n, cells := [] } = true := rfl

/-- A one-byte write inside a buffer lists only buffer bytes. -/
theorem Memory.inBuffers_write {m : Memory} {inCap a : Nat} (h : m.inBuffers inCap = true)
    (ha : isBufferOffset inCap a = true) (v : Byte) : (m.write a v).inBuffers inCap = true := by
  simp only [Memory.inBuffers, List.all_eq_true] at h ⊢
  unfold Memory.write
  split
  · exact fun c hc => h c (mem_eraseCell hc)
  · intro c hc
    rcases mem_insertCell hc with rfl | hc
    · exact ha
    · exact h c hc

/-- A wide write inside a buffer lists only buffer bytes. -/
theorem Memory.inBuffers_writeBytes {m : Memory} {inCap a : Nat} {bs : Bytes} (h : m.inBuffers inCap = true)
    (ha : ∀ k, k < bs.length → isBufferOffset inCap (a + k) = true) : (m.writeBytes a bs).inBuffers inCap = true := by
  induction bs generalizing m a with
  | nil => exact h
  | cons b bs ih =>
    refine ih (Memory.inBuffers_write h (by simpa using ha 0 (by simp)) b) fun k hk => ?_
    have := ha (k + 1) (by simpa using hk)
    rwa [show a + 1 + k = a + (k + 1) by omega]

end Sys2Proof.Machine
end

