-- ==== Sys2Proof/Laws/State.lean ====
section
/-! SUPPORT. What each update of the state does to each field, so that no proof unfolds a record update. -/

namespace Sys2Proof.Machine

variable (s : State)

@[simp] theorem State.setMem_mem (m : Memory) : (s.setMem m).mem = m := rfl
@[simp] theorem State.setMem_ckey (m : Memory) : (s.setMem m).ckey = s.ckey := rfl
@[simp] theorem State.setMem_seq (m : Memory) : (s.setMem m).seq = s.seq := rfl
@[simp] theorem State.setMem_done (m : Memory) : (s.setMem m).done = s.done := rfl
@[simp] theorem State.setMem_ovr (m : Memory) : (s.setMem m).ovr = s.ovr := rfl
@[simp] theorem State.setMem_cfgValid (m : Memory) : (s.setMem m).cfgValid = s.cfgValid := rfl
@[simp] theorem State.setMem_rkValid (m : Memory) : (s.setMem m).rkValid = s.rkValid := rfl
@[simp] theorem State.setMem_errcode (m : Memory) : (s.setMem m).errcode = s.errcode := rfl
@[simp] theorem State.setMem_cfgMode (m : Memory) : (s.setMem m).cfgMode = s.cfgMode := rfl
@[simp] theorem State.setMem_cfgPad (m : Memory) : (s.setMem m).cfgPad = s.cfgPad := rfl
@[simp] theorem State.setMem_cfgKlen (m : Memory) : (s.setMem m).cfgKlen = s.cfgKlen := rfl
@[simp] theorem State.setMem_ie (m : Memory) : (s.setMem m).ie = s.ie := rfl
@[simp] theorem State.setMem_inLen (m : Memory) : (s.setMem m).inLen = s.inLen := rfl
@[simp] theorem State.setMem_outLen (m : Memory) : (s.setMem m).outLen = s.outLen := rfl
@[simp] theorem State.setMem_ivLen (m : Memory) : (s.setMem m).ivLen = s.ivLen := rfl
@[simp] theorem State.setMem_rkBs (m : Memory) : (s.setMem m).rkBs = s.rkBs := rfl
@[simp] theorem State.setMem_rkNr (m : Memory) : (s.setMem m).rkNr = s.rkNr := rfl
@[simp] theorem State.setMem_inCap (m : Memory) : (s.setMem m).inCap = s.inCap := rfl
@[simp] theorem State.setMem_rst (m : Memory) : (s.setMem m).rst = s.rst := rfl
@[simp] theorem State.setMem_host (m : Memory) : (s.setMem m).host = s.host := rfl
@[simp] theorem State.setMem_resp (m : Memory) : (s.setMem m).resp = s.resp := rfl
@[simp] theorem State.setMem_issues (m : Memory) : (s.setMem m).issues = s.issues := rfl
@[simp] theorem State.setMem_resets (m : Memory) : (s.setMem m).resets = s.resets := rfl
@[simp] theorem State.setMem_busyDraws (m : Memory) : (s.setMem m).busyDraws = s.busyDraws := rfl
@[simp] theorem State.setMem_rngDraws (m : Memory) : (s.setMem m).rngDraws = s.rngDraws := rfl

@[simp] theorem State.setOutLen_mem (n : Nat) : (s.setOutLen n).mem = s.mem := rfl
@[simp] theorem State.setOutLen_ckey (n : Nat) : (s.setOutLen n).ckey = s.ckey := rfl
@[simp] theorem State.setOutLen_seq (n : Nat) : (s.setOutLen n).seq = s.seq := rfl
@[simp] theorem State.setOutLen_done (n : Nat) : (s.setOutLen n).done = s.done := rfl
@[simp] theorem State.setOutLen_ovr (n : Nat) : (s.setOutLen n).ovr = s.ovr := rfl
@[simp] theorem State.setOutLen_cfgValid (n : Nat) : (s.setOutLen n).cfgValid = s.cfgValid := rfl
@[simp] theorem State.setOutLen_rkValid (n : Nat) : (s.setOutLen n).rkValid = s.rkValid := rfl
@[simp] theorem State.setOutLen_errcode (n : Nat) : (s.setOutLen n).errcode = s.errcode := rfl
@[simp] theorem State.setOutLen_cfgMode (n : Nat) : (s.setOutLen n).cfgMode = s.cfgMode := rfl
@[simp] theorem State.setOutLen_cfgPad (n : Nat) : (s.setOutLen n).cfgPad = s.cfgPad := rfl
@[simp] theorem State.setOutLen_cfgKlen (n : Nat) : (s.setOutLen n).cfgKlen = s.cfgKlen := rfl
@[simp] theorem State.setOutLen_ie (n : Nat) : (s.setOutLen n).ie = s.ie := rfl
@[simp] theorem State.setOutLen_inLen (n : Nat) : (s.setOutLen n).inLen = s.inLen := rfl
@[simp] theorem State.setOutLen_outLen (n : Nat) : (s.setOutLen n).outLen = BitVec.ofNat 32 n := rfl
@[simp] theorem State.setOutLen_ivLen (n : Nat) : (s.setOutLen n).ivLen = s.ivLen := rfl
@[simp] theorem State.setOutLen_rkBs (n : Nat) : (s.setOutLen n).rkBs = s.rkBs := rfl
@[simp] theorem State.setOutLen_rkNr (n : Nat) : (s.setOutLen n).rkNr = s.rkNr := rfl
@[simp] theorem State.setOutLen_inCap (n : Nat) : (s.setOutLen n).inCap = s.inCap := rfl
@[simp] theorem State.setOutLen_rst (n : Nat) : (s.setOutLen n).rst = s.rst := rfl
@[simp] theorem State.setOutLen_host (n : Nat) : (s.setOutLen n).host = s.host := rfl
@[simp] theorem State.setOutLen_resp (n : Nat) : (s.setOutLen n).resp = s.resp := rfl
@[simp] theorem State.setOutLen_issues (n : Nat) : (s.setOutLen n).issues = s.issues := rfl
@[simp] theorem State.setOutLen_resets (n : Nat) : (s.setOutLen n).resets = s.resets := rfl
@[simp] theorem State.setOutLen_busyDraws (n : Nat) : (s.setOutLen n).busyDraws = s.busyDraws := rfl
@[simp] theorem State.setOutLen_rngDraws (n : Nat) : (s.setOutLen n).rngDraws = s.rngDraws := rfl

@[simp] theorem State.setSchedule_mem (bs nr : Nat) : (s.setSchedule bs nr).mem = s.mem := rfl
@[simp] theorem State.setSchedule_ckey (bs nr : Nat) : (s.setSchedule bs nr).ckey = s.ckey := rfl
@[simp] theorem State.setSchedule_seq (bs nr : Nat) : (s.setSchedule bs nr).seq = s.seq := rfl
@[simp] theorem State.setSchedule_done (bs nr : Nat) : (s.setSchedule bs nr).done = s.done := rfl
@[simp] theorem State.setSchedule_ovr (bs nr : Nat) : (s.setSchedule bs nr).ovr = s.ovr := rfl
@[simp] theorem State.setSchedule_cfgValid (bs nr : Nat) : (s.setSchedule bs nr).cfgValid = s.cfgValid := rfl
@[simp] theorem State.setSchedule_rkValid (bs nr : Nat) : (s.setSchedule bs nr).rkValid = true := rfl
@[simp] theorem State.setSchedule_errcode (bs nr : Nat) : (s.setSchedule bs nr).errcode = s.errcode := rfl
@[simp] theorem State.setSchedule_cfgMode (bs nr : Nat) : (s.setSchedule bs nr).cfgMode = s.cfgMode := rfl
@[simp] theorem State.setSchedule_cfgPad (bs nr : Nat) : (s.setSchedule bs nr).cfgPad = s.cfgPad := rfl
@[simp] theorem State.setSchedule_cfgKlen (bs nr : Nat) : (s.setSchedule bs nr).cfgKlen = s.cfgKlen := rfl
@[simp] theorem State.setSchedule_ie (bs nr : Nat) : (s.setSchedule bs nr).ie = s.ie := rfl
@[simp] theorem State.setSchedule_inLen (bs nr : Nat) : (s.setSchedule bs nr).inLen = s.inLen := rfl
@[simp] theorem State.setSchedule_outLen (bs nr : Nat) : (s.setSchedule bs nr).outLen = s.outLen := rfl
@[simp] theorem State.setSchedule_ivLen (bs nr : Nat) : (s.setSchedule bs nr).ivLen = s.ivLen := rfl
@[simp] theorem State.setSchedule_rkBs (bs nr : Nat) : (s.setSchedule bs nr).rkBs = BitVec.ofNat 8 bs := rfl
@[simp] theorem State.setSchedule_rkNr (bs nr : Nat) : (s.setSchedule bs nr).rkNr = BitVec.ofNat 4 nr := rfl
@[simp] theorem State.setSchedule_inCap (bs nr : Nat) : (s.setSchedule bs nr).inCap = s.inCap := rfl
@[simp] theorem State.setSchedule_rst (bs nr : Nat) : (s.setSchedule bs nr).rst = s.rst := rfl
@[simp] theorem State.setSchedule_host (bs nr : Nat) : (s.setSchedule bs nr).host = s.host := rfl
@[simp] theorem State.setSchedule_resp (bs nr : Nat) : (s.setSchedule bs nr).resp = s.resp := rfl
@[simp] theorem State.setSchedule_issues (bs nr : Nat) : (s.setSchedule bs nr).issues = s.issues := rfl
@[simp] theorem State.setSchedule_resets (bs nr : Nat) : (s.setSchedule bs nr).resets = s.resets := rfl
@[simp] theorem State.setSchedule_busyDraws (bs nr : Nat) : (s.setSchedule bs nr).busyDraws = s.busyDraws := rfl
@[simp] theorem State.setSchedule_rngDraws (bs nr : Nat) : (s.setSchedule bs nr).rngDraws = s.rngDraws := rfl

@[simp] theorem State.clearSchedule_mem : (s.clearSchedule).mem = s.mem := rfl
@[simp] theorem State.clearSchedule_ckey : (s.clearSchedule).ckey = s.ckey := rfl
@[simp] theorem State.clearSchedule_seq : (s.clearSchedule).seq = s.seq := rfl
@[simp] theorem State.clearSchedule_done : (s.clearSchedule).done = s.done := rfl
@[simp] theorem State.clearSchedule_ovr : (s.clearSchedule).ovr = s.ovr := rfl
@[simp] theorem State.clearSchedule_cfgValid : (s.clearSchedule).cfgValid = s.cfgValid := rfl
@[simp] theorem State.clearSchedule_rkValid : (s.clearSchedule).rkValid = false := rfl
@[simp] theorem State.clearSchedule_errcode : (s.clearSchedule).errcode = s.errcode := rfl
@[simp] theorem State.clearSchedule_cfgMode : (s.clearSchedule).cfgMode = s.cfgMode := rfl
@[simp] theorem State.clearSchedule_cfgPad : (s.clearSchedule).cfgPad = s.cfgPad := rfl
@[simp] theorem State.clearSchedule_cfgKlen : (s.clearSchedule).cfgKlen = s.cfgKlen := rfl
@[simp] theorem State.clearSchedule_ie : (s.clearSchedule).ie = s.ie := rfl
@[simp] theorem State.clearSchedule_inLen : (s.clearSchedule).inLen = s.inLen := rfl
@[simp] theorem State.clearSchedule_outLen : (s.clearSchedule).outLen = s.outLen := rfl
@[simp] theorem State.clearSchedule_ivLen : (s.clearSchedule).ivLen = s.ivLen := rfl
@[simp] theorem State.clearSchedule_rkBs : (s.clearSchedule).rkBs = 0 := rfl
@[simp] theorem State.clearSchedule_rkNr : (s.clearSchedule).rkNr = 0 := rfl
@[simp] theorem State.clearSchedule_inCap : (s.clearSchedule).inCap = s.inCap := rfl
@[simp] theorem State.clearSchedule_rst : (s.clearSchedule).rst = s.rst := rfl
@[simp] theorem State.clearSchedule_host : (s.clearSchedule).host = s.host := rfl
@[simp] theorem State.clearSchedule_resp : (s.clearSchedule).resp = s.resp := rfl
@[simp] theorem State.clearSchedule_issues : (s.clearSchedule).issues = s.issues := rfl
@[simp] theorem State.clearSchedule_resets : (s.clearSchedule).resets = s.resets := rfl
@[simp] theorem State.clearSchedule_busyDraws : (s.clearSchedule).busyDraws = s.busyDraws := rfl
@[simp] theorem State.clearSchedule_rngDraws : (s.clearSchedule).rngDraws = s.rngDraws := rfl

@[simp] theorem State.setSlot_mem (k : Vector Byte 32) (md : Mode) (p : Scheme) (kl : Nat) : (s.setSlot k md p kl).mem = s.mem := rfl
@[simp] theorem State.setSlot_ckey (k : Vector Byte 32) (md : Mode) (p : Scheme) (kl : Nat) : (s.setSlot k md p kl).ckey = k := rfl
@[simp] theorem State.setSlot_seq (k : Vector Byte 32) (md : Mode) (p : Scheme) (kl : Nat) : (s.setSlot k md p kl).seq = s.seq := rfl
@[simp] theorem State.setSlot_done (k : Vector Byte 32) (md : Mode) (p : Scheme) (kl : Nat) : (s.setSlot k md p kl).done = s.done := rfl
@[simp] theorem State.setSlot_ovr (k : Vector Byte 32) (md : Mode) (p : Scheme) (kl : Nat) : (s.setSlot k md p kl).ovr = s.ovr := rfl
@[simp] theorem State.setSlot_cfgValid (k : Vector Byte 32) (md : Mode) (p : Scheme) (kl : Nat) : (s.setSlot k md p kl).cfgValid = true := rfl
@[simp] theorem State.setSlot_rkValid (k : Vector Byte 32) (md : Mode) (p : Scheme) (kl : Nat) : (s.setSlot k md p kl).rkValid = s.rkValid := rfl
@[simp] theorem State.setSlot_errcode (k : Vector Byte 32) (md : Mode) (p : Scheme) (kl : Nat) : (s.setSlot k md p kl).errcode = s.errcode := rfl
@[simp] theorem State.setSlot_cfgMode (k : Vector Byte 32) (md : Mode) (p : Scheme) (kl : Nat) : (s.setSlot k md p kl).cfgMode = md := rfl
@[simp] theorem State.setSlot_cfgPad (k : Vector Byte 32) (md : Mode) (p : Scheme) (kl : Nat) : (s.setSlot k md p kl).cfgPad = p := rfl
@[simp] theorem State.setSlot_cfgKlen (k : Vector Byte 32) (md : Mode) (p : Scheme) (kl : Nat) : (s.setSlot k md p kl).cfgKlen = BitVec.ofNat 8 kl := rfl
@[simp] theorem State.setSlot_ie (k : Vector Byte 32) (md : Mode) (p : Scheme) (kl : Nat) : (s.setSlot k md p kl).ie = s.ie := rfl
@[simp] theorem State.setSlot_inLen (k : Vector Byte 32) (md : Mode) (p : Scheme) (kl : Nat) : (s.setSlot k md p kl).inLen = s.inLen := rfl
@[simp] theorem State.setSlot_outLen (k : Vector Byte 32) (md : Mode) (p : Scheme) (kl : Nat) : (s.setSlot k md p kl).outLen = s.outLen := rfl
@[simp] theorem State.setSlot_ivLen (k : Vector Byte 32) (md : Mode) (p : Scheme) (kl : Nat) : (s.setSlot k md p kl).ivLen = s.ivLen := rfl
@[simp] theorem State.setSlot_rkBs (k : Vector Byte 32) (md : Mode) (p : Scheme) (kl : Nat) : (s.setSlot k md p kl).rkBs = s.rkBs := rfl
@[simp] theorem State.setSlot_rkNr (k : Vector Byte 32) (md : Mode) (p : Scheme) (kl : Nat) : (s.setSlot k md p kl).rkNr = s.rkNr := rfl
@[simp] theorem State.setSlot_inCap (k : Vector Byte 32) (md : Mode) (p : Scheme) (kl : Nat) : (s.setSlot k md p kl).inCap = s.inCap := rfl
@[simp] theorem State.setSlot_rst (k : Vector Byte 32) (md : Mode) (p : Scheme) (kl : Nat) : (s.setSlot k md p kl).rst = s.rst := rfl
@[simp] theorem State.setSlot_host (k : Vector Byte 32) (md : Mode) (p : Scheme) (kl : Nat) : (s.setSlot k md p kl).host = s.host := rfl
@[simp] theorem State.setSlot_resp (k : Vector Byte 32) (md : Mode) (p : Scheme) (kl : Nat) : (s.setSlot k md p kl).resp = s.resp := rfl
@[simp] theorem State.setSlot_issues (k : Vector Byte 32) (md : Mode) (p : Scheme) (kl : Nat) : (s.setSlot k md p kl).issues = s.issues := rfl
@[simp] theorem State.setSlot_resets (k : Vector Byte 32) (md : Mode) (p : Scheme) (kl : Nat) : (s.setSlot k md p kl).resets = s.resets := rfl
@[simp] theorem State.setSlot_busyDraws (k : Vector Byte 32) (md : Mode) (p : Scheme) (kl : Nat) : (s.setSlot k md p kl).busyDraws = s.busyDraws := rfl
@[simp] theorem State.setSlot_rngDraws (k : Vector Byte 32) (md : Mode) (p : Scheme) (kl : Nat) : (s.setSlot k md p kl).rngDraws = s.rngDraws := rfl

@[simp] theorem State.clearSlot_mem : (s.clearSlot).mem = s.mem := rfl
@[simp] theorem State.clearSlot_ckey : (s.clearSlot).ckey = s.ckey := rfl
@[simp] theorem State.clearSlot_seq : (s.clearSlot).seq = s.seq := rfl
@[simp] theorem State.clearSlot_done : (s.clearSlot).done = s.done := rfl
@[simp] theorem State.clearSlot_ovr : (s.clearSlot).ovr = s.ovr := rfl
@[simp] theorem State.clearSlot_cfgValid : (s.clearSlot).cfgValid = false := rfl
@[simp] theorem State.clearSlot_rkValid : (s.clearSlot).rkValid = s.rkValid := rfl
@[simp] theorem State.clearSlot_errcode : (s.clearSlot).errcode = s.errcode := rfl
@[simp] theorem State.clearSlot_cfgMode : (s.clearSlot).cfgMode = .ecb := rfl
@[simp] theorem State.clearSlot_cfgPad : (s.clearSlot).cfgPad = .zero := rfl
@[simp] theorem State.clearSlot_cfgKlen : (s.clearSlot).cfgKlen = 0 := rfl
@[simp] theorem State.clearSlot_ie : (s.clearSlot).ie = s.ie := rfl
@[simp] theorem State.clearSlot_inLen : (s.clearSlot).inLen = s.inLen := rfl
@[simp] theorem State.clearSlot_outLen : (s.clearSlot).outLen = s.outLen := rfl
@[simp] theorem State.clearSlot_ivLen : (s.clearSlot).ivLen = s.ivLen := rfl
@[simp] theorem State.clearSlot_rkBs : (s.clearSlot).rkBs = s.rkBs := rfl
@[simp] theorem State.clearSlot_rkNr : (s.clearSlot).rkNr = s.rkNr := rfl
@[simp] theorem State.clearSlot_inCap : (s.clearSlot).inCap = s.inCap := rfl
@[simp] theorem State.clearSlot_rst : (s.clearSlot).rst = s.rst := rfl
@[simp] theorem State.clearSlot_host : (s.clearSlot).host = s.host := rfl
@[simp] theorem State.clearSlot_resp : (s.clearSlot).resp = s.resp := rfl
@[simp] theorem State.clearSlot_issues : (s.clearSlot).issues = s.issues := rfl
@[simp] theorem State.clearSlot_resets : (s.clearSlot).resets = s.resets := rfl
@[simp] theorem State.clearSlot_busyDraws : (s.clearSlot).busyDraws = s.busyDraws := rfl
@[simp] theorem State.clearSlot_rngDraws : (s.clearSlot).rngDraws = s.rngDraws := rfl

@[simp] theorem State.drawRng_mem (n : Nat) : (s.drawRng n).mem = s.mem := rfl
@[simp] theorem State.drawRng_ckey (n : Nat) : (s.drawRng n).ckey = s.ckey := rfl
@[simp] theorem State.drawRng_seq (n : Nat) : (s.drawRng n).seq = s.seq := rfl
@[simp] theorem State.drawRng_done (n : Nat) : (s.drawRng n).done = s.done := rfl
@[simp] theorem State.drawRng_ovr (n : Nat) : (s.drawRng n).ovr = s.ovr := rfl
@[simp] theorem State.drawRng_cfgValid (n : Nat) : (s.drawRng n).cfgValid = s.cfgValid := rfl
@[simp] theorem State.drawRng_rkValid (n : Nat) : (s.drawRng n).rkValid = s.rkValid := rfl
@[simp] theorem State.drawRng_errcode (n : Nat) : (s.drawRng n).errcode = s.errcode := rfl
@[simp] theorem State.drawRng_cfgMode (n : Nat) : (s.drawRng n).cfgMode = s.cfgMode := rfl
@[simp] theorem State.drawRng_cfgPad (n : Nat) : (s.drawRng n).cfgPad = s.cfgPad := rfl
@[simp] theorem State.drawRng_cfgKlen (n : Nat) : (s.drawRng n).cfgKlen = s.cfgKlen := rfl
@[simp] theorem State.drawRng_ie (n : Nat) : (s.drawRng n).ie = s.ie := rfl
@[simp] theorem State.drawRng_inLen (n : Nat) : (s.drawRng n).inLen = s.inLen := rfl
@[simp] theorem State.drawRng_outLen (n : Nat) : (s.drawRng n).outLen = s.outLen := rfl
@[simp] theorem State.drawRng_ivLen (n : Nat) : (s.drawRng n).ivLen = s.ivLen := rfl
@[simp] theorem State.drawRng_rkBs (n : Nat) : (s.drawRng n).rkBs = s.rkBs := rfl
@[simp] theorem State.drawRng_rkNr (n : Nat) : (s.drawRng n).rkNr = s.rkNr := rfl
@[simp] theorem State.drawRng_inCap (n : Nat) : (s.drawRng n).inCap = s.inCap := rfl
@[simp] theorem State.drawRng_rst (n : Nat) : (s.drawRng n).rst = s.rst := rfl
@[simp] theorem State.drawRng_host (n : Nat) : (s.drawRng n).host = s.host := rfl
@[simp] theorem State.drawRng_resp (n : Nat) : (s.drawRng n).resp = s.resp := rfl
@[simp] theorem State.drawRng_issues (n : Nat) : (s.drawRng n).issues = s.issues := rfl
@[simp] theorem State.drawRng_resets (n : Nat) : (s.drawRng n).resets = s.resets := rfl
@[simp] theorem State.drawRng_busyDraws (n : Nat) : (s.drawRng n).busyDraws = s.busyDraws := rfl
@[simp] theorem State.drawRng_rngDraws (n : Nat) : (s.drawRng n).rngDraws = s.rngDraws + n := rfl

@[simp] theorem State.respond_mem (r : Response) : (s.respond r).mem = s.mem := rfl
@[simp] theorem State.respond_ckey (r : Response) : (s.respond r).ckey = s.ckey := rfl
@[simp] theorem State.respond_seq (r : Response) : (s.respond r).seq = s.seq := rfl
@[simp] theorem State.respond_done (r : Response) : (s.respond r).done = s.done := rfl
@[simp] theorem State.respond_ovr (r : Response) : (s.respond r).ovr = s.ovr := rfl
@[simp] theorem State.respond_cfgValid (r : Response) : (s.respond r).cfgValid = s.cfgValid := rfl
@[simp] theorem State.respond_rkValid (r : Response) : (s.respond r).rkValid = s.rkValid := rfl
@[simp] theorem State.respond_errcode (r : Response) : (s.respond r).errcode = s.errcode := rfl
@[simp] theorem State.respond_cfgMode (r : Response) : (s.respond r).cfgMode = s.cfgMode := rfl
@[simp] theorem State.respond_cfgPad (r : Response) : (s.respond r).cfgPad = s.cfgPad := rfl
@[simp] theorem State.respond_cfgKlen (r : Response) : (s.respond r).cfgKlen = s.cfgKlen := rfl
@[simp] theorem State.respond_ie (r : Response) : (s.respond r).ie = s.ie := rfl
@[simp] theorem State.respond_inLen (r : Response) : (s.respond r).inLen = s.inLen := rfl
@[simp] theorem State.respond_outLen (r : Response) : (s.respond r).outLen = s.outLen := rfl
@[simp] theorem State.respond_ivLen (r : Response) : (s.respond r).ivLen = s.ivLen := rfl
@[simp] theorem State.respond_rkBs (r : Response) : (s.respond r).rkBs = s.rkBs := rfl
@[simp] theorem State.respond_rkNr (r : Response) : (s.respond r).rkNr = s.rkNr := rfl
@[simp] theorem State.respond_inCap (r : Response) : (s.respond r).inCap = s.inCap := rfl
@[simp] theorem State.respond_rst (r : Response) : (s.respond r).rst = s.rst := rfl
@[simp] theorem State.respond_host (r : Response) : (s.respond r).host = s.host := rfl
@[simp] theorem State.respond_resp (r : Response) : (s.respond r).resp = some r := rfl
@[simp] theorem State.respond_issues (r : Response) : (s.respond r).issues = s.issues := rfl
@[simp] theorem State.respond_resets (r : Response) : (s.respond r).resets = s.resets := rfl
@[simp] theorem State.respond_busyDraws (r : Response) : (s.respond r).busyDraws = s.busyDraws := rfl
@[simp] theorem State.respond_rngDraws (r : Response) : (s.respond r).rngDraws = s.rngDraws := rfl

@[simp] theorem State.issue_mem (w : Word) : (s.issue w).mem = s.mem := rfl
@[simp] theorem State.issue_ckey (w : Word) : (s.issue w).ckey = s.ckey := rfl
@[simp] theorem State.issue_seq (w : Word) : (s.issue w).seq = .executing w (Config.latency s.issues) := rfl
@[simp] theorem State.issue_done (w : Word) : (s.issue w).done = false := rfl
@[simp] theorem State.issue_ovr (w : Word) : (s.issue w).ovr = s.ovr := rfl
@[simp] theorem State.issue_cfgValid (w : Word) : (s.issue w).cfgValid = s.cfgValid := rfl
@[simp] theorem State.issue_rkValid (w : Word) : (s.issue w).rkValid = s.rkValid := rfl
@[simp] theorem State.issue_errcode (w : Word) : (s.issue w).errcode = .ok := rfl
@[simp] theorem State.issue_cfgMode (w : Word) : (s.issue w).cfgMode = s.cfgMode := rfl
@[simp] theorem State.issue_cfgPad (w : Word) : (s.issue w).cfgPad = s.cfgPad := rfl
@[simp] theorem State.issue_cfgKlen (w : Word) : (s.issue w).cfgKlen = s.cfgKlen := rfl
@[simp] theorem State.issue_ie (w : Word) : (s.issue w).ie = s.ie := rfl
@[simp] theorem State.issue_inLen (w : Word) : (s.issue w).inLen = s.inLen := rfl
@[simp] theorem State.issue_outLen (w : Word) : (s.issue w).outLen = s.outLen := rfl
@[simp] theorem State.issue_ivLen (w : Word) : (s.issue w).ivLen = s.ivLen := rfl
@[simp] theorem State.issue_rkBs (w : Word) : (s.issue w).rkBs = s.rkBs := rfl
@[simp] theorem State.issue_rkNr (w : Word) : (s.issue w).rkNr = s.rkNr := rfl
@[simp] theorem State.issue_inCap (w : Word) : (s.issue w).inCap = s.inCap := rfl
@[simp] theorem State.issue_rst (w : Word) : (s.issue w).rst = s.rst := rfl
@[simp] theorem State.issue_host (w : Word) : (s.issue w).host = s.host := rfl
@[simp] theorem State.issue_resp (w : Word) : (s.issue w).resp = s.resp := rfl
@[simp] theorem State.issue_issues (w : Word) : (s.issue w).issues = s.issues + 1 := rfl
@[simp] theorem State.issue_resets (w : Word) : (s.issue w).resets = s.resets := rfl
@[simp] theorem State.issue_busyDraws (w : Word) : (s.issue w).busyDraws = s.busyDraws := rfl
@[simp] theorem State.issue_rngDraws (w : Word) : (s.issue w).rngDraws = s.rngDraws := rfl

@[simp] theorem State.complete_mem (c : ErrCode) : (s.complete c).mem = s.mem := rfl
@[simp] theorem State.complete_ckey (c : ErrCode) : (s.complete c).ckey = s.ckey := rfl
@[simp] theorem State.complete_seq (c : ErrCode) : (s.complete c).seq = .idle := rfl
@[simp] theorem State.complete_done (c : ErrCode) : (s.complete c).done = true := rfl
@[simp] theorem State.complete_ovr (c : ErrCode) : (s.complete c).ovr = s.ovr := rfl
@[simp] theorem State.complete_cfgValid (c : ErrCode) : (s.complete c).cfgValid = s.cfgValid := rfl
@[simp] theorem State.complete_rkValid (c : ErrCode) : (s.complete c).rkValid = s.rkValid := rfl
@[simp] theorem State.complete_errcode (c : ErrCode) : (s.complete c).errcode = c := rfl
@[simp] theorem State.complete_cfgMode (c : ErrCode) : (s.complete c).cfgMode = s.cfgMode := rfl
@[simp] theorem State.complete_cfgPad (c : ErrCode) : (s.complete c).cfgPad = s.cfgPad := rfl
@[simp] theorem State.complete_cfgKlen (c : ErrCode) : (s.complete c).cfgKlen = s.cfgKlen := rfl
@[simp] theorem State.complete_ie (c : ErrCode) : (s.complete c).ie = s.ie := rfl
@[simp] theorem State.complete_inLen (c : ErrCode) : (s.complete c).inLen = s.inLen := rfl
@[simp] theorem State.complete_outLen (c : ErrCode) : (s.complete c).outLen = s.outLen := rfl
@[simp] theorem State.complete_ivLen (c : ErrCode) : (s.complete c).ivLen = s.ivLen := rfl
@[simp] theorem State.complete_rkBs (c : ErrCode) : (s.complete c).rkBs = s.rkBs := rfl
@[simp] theorem State.complete_rkNr (c : ErrCode) : (s.complete c).rkNr = s.rkNr := rfl
@[simp] theorem State.complete_inCap (c : ErrCode) : (s.complete c).inCap = s.inCap := rfl
@[simp] theorem State.complete_rst (c : ErrCode) : (s.complete c).rst = s.rst := rfl
@[simp] theorem State.complete_host (c : ErrCode) : (s.complete c).host = s.host := rfl
@[simp] theorem State.complete_resp (c : ErrCode) : (s.complete c).resp = s.resp := rfl
@[simp] theorem State.complete_issues (c : ErrCode) : (s.complete c).issues = s.issues := rfl
@[simp] theorem State.complete_resets (c : ErrCode) : (s.complete c).resets = s.resets := rfl
@[simp] theorem State.complete_busyDraws (c : ErrCode) : (s.complete c).busyDraws = s.busyDraws := rfl
@[simp] theorem State.complete_rngDraws (c : ErrCode) : (s.complete c).rngDraws = s.rngDraws := rfl

@[simp] theorem State.writeStatus_mem (v : Word) : (s.writeStatus v).mem = s.mem := rfl
@[simp] theorem State.writeStatus_ckey (v : Word) : (s.writeStatus v).ckey = s.ckey := rfl
@[simp] theorem State.writeStatus_seq (v : Word) : (s.writeStatus v).seq = s.seq := rfl
@[simp] theorem State.writeStatus_done (v : Word) : (s.writeStatus v).done = (s.done && !v.getLsbD 1) := rfl
@[simp] theorem State.writeStatus_ovr (v : Word) : (s.writeStatus v).ovr = (s.ovr && !v.getLsbD 3) := rfl
@[simp] theorem State.writeStatus_cfgValid (v : Word) : (s.writeStatus v).cfgValid = s.cfgValid := rfl
@[simp] theorem State.writeStatus_rkValid (v : Word) : (s.writeStatus v).rkValid = s.rkValid := rfl
@[simp] theorem State.writeStatus_errcode (v : Word) : (s.writeStatus v).errcode = s.errcode := rfl
@[simp] theorem State.writeStatus_cfgMode (v : Word) : (s.writeStatus v).cfgMode = s.cfgMode := rfl
@[simp] theorem State.writeStatus_cfgPad (v : Word) : (s.writeStatus v).cfgPad = s.cfgPad := rfl
@[simp] theorem State.writeStatus_cfgKlen (v : Word) : (s.writeStatus v).cfgKlen = s.cfgKlen := rfl
@[simp] theorem State.writeStatus_ie (v : Word) : (s.writeStatus v).ie = s.ie := rfl
@[simp] theorem State.writeStatus_inLen (v : Word) : (s.writeStatus v).inLen = s.inLen := rfl
@[simp] theorem State.writeStatus_outLen (v : Word) : (s.writeStatus v).outLen = s.outLen := rfl
@[simp] theorem State.writeStatus_ivLen (v : Word) : (s.writeStatus v).ivLen = s.ivLen := rfl
@[simp] theorem State.writeStatus_rkBs (v : Word) : (s.writeStatus v).rkBs = s.rkBs := rfl
@[simp] theorem State.writeStatus_rkNr (v : Word) : (s.writeStatus v).rkNr = s.rkNr := rfl
@[simp] theorem State.writeStatus_inCap (v : Word) : (s.writeStatus v).inCap = s.inCap := rfl
@[simp] theorem State.writeStatus_rst (v : Word) : (s.writeStatus v).rst = s.rst := rfl
@[simp] theorem State.writeStatus_host (v : Word) : (s.writeStatus v).host = s.host := rfl
@[simp] theorem State.writeStatus_resp (v : Word) : (s.writeStatus v).resp = s.resp := rfl
@[simp] theorem State.writeStatus_issues (v : Word) : (s.writeStatus v).issues = s.issues := rfl
@[simp] theorem State.writeStatus_resets (v : Word) : (s.writeStatus v).resets = s.resets := rfl
@[simp] theorem State.writeStatus_busyDraws (v : Word) : (s.writeStatus v).busyDraws = s.busyDraws := rfl
@[simp] theorem State.writeStatus_rngDraws (v : Word) : (s.writeStatus v).rngDraws = s.rngDraws := rfl

@[simp] theorem State.writeCtrl_mem (v : Word) : (s.writeCtrl v).mem = s.mem := rfl
@[simp] theorem State.writeCtrl_ckey (v : Word) : (s.writeCtrl v).ckey = s.ckey := rfl
@[simp] theorem State.writeCtrl_seq (v : Word) : (s.writeCtrl v).seq = s.seq := rfl
@[simp] theorem State.writeCtrl_done (v : Word) : (s.writeCtrl v).done = s.done := rfl
@[simp] theorem State.writeCtrl_ovr (v : Word) : (s.writeCtrl v).ovr = s.ovr := rfl
@[simp] theorem State.writeCtrl_cfgValid (v : Word) : (s.writeCtrl v).cfgValid = s.cfgValid := rfl
@[simp] theorem State.writeCtrl_rkValid (v : Word) : (s.writeCtrl v).rkValid = s.rkValid := rfl
@[simp] theorem State.writeCtrl_errcode (v : Word) : (s.writeCtrl v).errcode = s.errcode := rfl
@[simp] theorem State.writeCtrl_cfgMode (v : Word) : (s.writeCtrl v).cfgMode = s.cfgMode := rfl
@[simp] theorem State.writeCtrl_cfgPad (v : Word) : (s.writeCtrl v).cfgPad = s.cfgPad := rfl
@[simp] theorem State.writeCtrl_cfgKlen (v : Word) : (s.writeCtrl v).cfgKlen = s.cfgKlen := rfl
@[simp] theorem State.writeCtrl_ie (v : Word) : (s.writeCtrl v).ie = v.getLsbD 0 := rfl
@[simp] theorem State.writeCtrl_inLen (v : Word) : (s.writeCtrl v).inLen = s.inLen := rfl
@[simp] theorem State.writeCtrl_outLen (v : Word) : (s.writeCtrl v).outLen = s.outLen := rfl
@[simp] theorem State.writeCtrl_ivLen (v : Word) : (s.writeCtrl v).ivLen = s.ivLen := rfl
@[simp] theorem State.writeCtrl_rkBs (v : Word) : (s.writeCtrl v).rkBs = s.rkBs := rfl
@[simp] theorem State.writeCtrl_rkNr (v : Word) : (s.writeCtrl v).rkNr = s.rkNr := rfl
@[simp] theorem State.writeCtrl_inCap (v : Word) : (s.writeCtrl v).inCap = s.inCap := rfl
@[simp] theorem State.writeCtrl_rst (v : Word) : (s.writeCtrl v).rst = s.rst := rfl
@[simp] theorem State.writeCtrl_host (v : Word) : (s.writeCtrl v).host = s.host := rfl
@[simp] theorem State.writeCtrl_resp (v : Word) : (s.writeCtrl v).resp = s.resp := rfl
@[simp] theorem State.writeCtrl_issues (v : Word) : (s.writeCtrl v).issues = s.issues := rfl
@[simp] theorem State.writeCtrl_resets (v : Word) : (s.writeCtrl v).resets = s.resets := rfl
@[simp] theorem State.writeCtrl_busyDraws (v : Word) : (s.writeCtrl v).busyDraws = s.busyDraws := rfl
@[simp] theorem State.writeCtrl_rngDraws (v : Word) : (s.writeCtrl v).rngDraws = s.rngDraws := rfl

@[simp] theorem State.setOvr_mem : (s.setOvr).mem = s.mem := rfl
@[simp] theorem State.setOvr_ckey : (s.setOvr).ckey = s.ckey := rfl
@[simp] theorem State.setOvr_seq : (s.setOvr).seq = s.seq := rfl
@[simp] theorem State.setOvr_done : (s.setOvr).done = s.done := rfl
@[simp] theorem State.setOvr_ovr : (s.setOvr).ovr = true := rfl
@[simp] theorem State.setOvr_cfgValid : (s.setOvr).cfgValid = s.cfgValid := rfl
@[simp] theorem State.setOvr_rkValid : (s.setOvr).rkValid = s.rkValid := rfl
@[simp] theorem State.setOvr_errcode : (s.setOvr).errcode = s.errcode := rfl
@[simp] theorem State.setOvr_cfgMode : (s.setOvr).cfgMode = s.cfgMode := rfl
@[simp] theorem State.setOvr_cfgPad : (s.setOvr).cfgPad = s.cfgPad := rfl
@[simp] theorem State.setOvr_cfgKlen : (s.setOvr).cfgKlen = s.cfgKlen := rfl
@[simp] theorem State.setOvr_ie : (s.setOvr).ie = s.ie := rfl
@[simp] theorem State.setOvr_inLen : (s.setOvr).inLen = s.inLen := rfl
@[simp] theorem State.setOvr_outLen : (s.setOvr).outLen = s.outLen := rfl
@[simp] theorem State.setOvr_ivLen : (s.setOvr).ivLen = s.ivLen := rfl
@[simp] theorem State.setOvr_rkBs : (s.setOvr).rkBs = s.rkBs := rfl
@[simp] theorem State.setOvr_rkNr : (s.setOvr).rkNr = s.rkNr := rfl
@[simp] theorem State.setOvr_inCap : (s.setOvr).inCap = s.inCap := rfl
@[simp] theorem State.setOvr_rst : (s.setOvr).rst = s.rst := rfl
@[simp] theorem State.setOvr_host : (s.setOvr).host = s.host := rfl
@[simp] theorem State.setOvr_resp : (s.setOvr).resp = s.resp := rfl
@[simp] theorem State.setOvr_issues : (s.setOvr).issues = s.issues := rfl
@[simp] theorem State.setOvr_resets : (s.setOvr).resets = s.resets := rfl
@[simp] theorem State.setOvr_busyDraws : (s.setOvr).busyDraws = s.busyDraws := rfl
@[simp] theorem State.setOvr_rngDraws : (s.setOvr).rngDraws = s.rngDraws := rfl

@[simp] theorem State.zeroized_mem : (s.zeroized).mem = Memory.zeroed := rfl
@[simp] theorem State.zeroized_ckey : (s.zeroized).ckey = Vector.replicate 32 0 := rfl
@[simp] theorem State.zeroized_seq : (s.zeroized).seq = s.seq := rfl
@[simp] theorem State.zeroized_done : (s.zeroized).done = s.done := rfl
@[simp] theorem State.zeroized_ovr : (s.zeroized).ovr = s.ovr := rfl
@[simp] theorem State.zeroized_cfgValid : (s.zeroized).cfgValid = false := rfl
@[simp] theorem State.zeroized_rkValid : (s.zeroized).rkValid = false := rfl
@[simp] theorem State.zeroized_errcode : (s.zeroized).errcode = s.errcode := rfl
@[simp] theorem State.zeroized_cfgMode : (s.zeroized).cfgMode = .ecb := rfl
@[simp] theorem State.zeroized_cfgPad : (s.zeroized).cfgPad = .zero := rfl
@[simp] theorem State.zeroized_cfgKlen : (s.zeroized).cfgKlen = 0 := rfl
@[simp] theorem State.zeroized_ie : (s.zeroized).ie = s.ie := rfl
@[simp] theorem State.zeroized_inLen : (s.zeroized).inLen = 0 := rfl
@[simp] theorem State.zeroized_outLen : (s.zeroized).outLen = 0 := rfl
@[simp] theorem State.zeroized_ivLen : (s.zeroized).ivLen = 0 := rfl
@[simp] theorem State.zeroized_rkBs : (s.zeroized).rkBs = 0 := rfl
@[simp] theorem State.zeroized_rkNr : (s.zeroized).rkNr = 0 := rfl
@[simp] theorem State.zeroized_inCap : (s.zeroized).inCap = s.inCap := rfl
@[simp] theorem State.zeroized_rst : (s.zeroized).rst = s.rst := rfl
@[simp] theorem State.zeroized_host : (s.zeroized).host = s.host := rfl
@[simp] theorem State.zeroized_resp : (s.zeroized).resp = s.resp := rfl
@[simp] theorem State.zeroized_issues : (s.zeroized).issues = s.issues := rfl
@[simp] theorem State.zeroized_resets : (s.zeroized).resets = s.resets := rfl
@[simp] theorem State.zeroized_busyDraws : (s.zeroized).busyDraws = s.busyDraws := rfl
@[simp] theorem State.zeroized_rngDraws : (s.zeroized).rngDraws = s.rngDraws := rfl

@[simp] theorem State.resetNow_mem : (s.resetNow).mem = { fill := .drawn (s.resets + 1), cells := [] } := rfl
@[simp] theorem State.resetNow_ckey : (s.resetNow).ckey = drawnKey (s.resets + 1) := rfl
@[simp] theorem State.resetNow_seq : (s.resetNow).seq = .idle := rfl
@[simp] theorem State.resetNow_done : (s.resetNow).done = false := rfl
@[simp] theorem State.resetNow_ovr : (s.resetNow).ovr = false := rfl
@[simp] theorem State.resetNow_cfgValid : (s.resetNow).cfgValid = false := rfl
@[simp] theorem State.resetNow_rkValid : (s.resetNow).rkValid = false := rfl
@[simp] theorem State.resetNow_errcode : (s.resetNow).errcode = .ok := rfl
@[simp] theorem State.resetNow_cfgMode : (s.resetNow).cfgMode = .ecb := rfl
@[simp] theorem State.resetNow_cfgPad : (s.resetNow).cfgPad = .zero := rfl
@[simp] theorem State.resetNow_cfgKlen : (s.resetNow).cfgKlen = 0 := rfl
@[simp] theorem State.resetNow_ie : (s.resetNow).ie = false := rfl
@[simp] theorem State.resetNow_inLen : (s.resetNow).inLen = 0 := rfl
@[simp] theorem State.resetNow_outLen : (s.resetNow).outLen = 0 := rfl
@[simp] theorem State.resetNow_ivLen : (s.resetNow).ivLen = 0 := rfl
@[simp] theorem State.resetNow_rkBs : (s.resetNow).rkBs = 0 := rfl
@[simp] theorem State.resetNow_rkNr : (s.resetNow).rkNr = 0 := rfl
@[simp] theorem State.resetNow_inCap : (s.resetNow).inCap = s.inCap := rfl
@[simp] theorem State.resetNow_rst : (s.resetNow).rst = true := rfl
@[simp] theorem State.resetNow_host : (s.resetNow).host = s.host := rfl
@[simp] theorem State.resetNow_resp : (s.resetNow).resp = Option.none := rfl
@[simp] theorem State.resetNow_issues : (s.resetNow).issues = s.issues := rfl
@[simp] theorem State.resetNow_resets : (s.resetNow).resets = s.resets + 1 := rfl
@[simp] theorem State.resetNow_busyDraws : (s.resetNow).busyDraws = s.busyDraws := rfl
@[simp] theorem State.resetNow_rngDraws : (s.resetNow).rngDraws = s.rngDraws := rfl

end Sys2Proof.Machine
end

