-- ==== Sys2Proof/Laws/Ops.lean ====
section
/-! SUPPORT. For each shared operation, everything it can do, said once: completions, the checks and outcomes of each command,
the host's accesses, and one step. Provers cite these instead of unfolding the operation. -/

namespace Sys2Proof.Machine

/-- How a command ends with an error: OUT_LEN <- 0 and the bookkeeping (60 R522). -/
def State.failed (s : State) (c : ErrCode) : State := (s.setOutLen 0).complete c

theorem finish_eq (s : State) : finish s = .next (s.complete .ok) := rfl

theorem raise_eq (c : ErrCode) (s : State) : raise c s = .next (s.failed c) := rfl

theorem next_inj {s t : State} : (Host.Outcome.next s : Result) = .next t ↔ s = t := by
  constructor
  · intro h; cases h; rfl
  · rintro rfl; rfl

@[simp] theorem finish_next {s t : State} : finish s = .next t ↔ s.complete .ok = t := next_inj

@[simp] theorem raise_next {c : ErrCode} {s t : State} : raise c s = .next t ↔ s.failed c = t := next_inj

/-- A round step (42 R320 to R325): the size error, or f on STATE[0..bs). -/
theorem roundStep_cases {f : Bytes → Bytes} {bs : Nat} {s t : State} (h : roundStep f bs s = .next t) :
    (¬ LegalSize bs ∧ t = s.failed .invalidBlockSize) ∨
    (LegalSize bs ∧ t = (s.storeState (f (s.stateBytes bs))).complete .ok) := by
  unfold roundStep at h
  split at h
  · next hb => exact .inl ⟨hb, (raise_next.mp h).symm⟩
  · next hb => exact .inr ⟨Decidable.not_not.mp hb, (finish_next.mp h).symm⟩

/-- A keyed step (42 R326 to R332): the size error, NoSchedule, or f on STATE[0..bs). -/
theorem keyedStep_cases {f : Bytes → Bytes} {bs r : Nat} {s t : State} (h : keyedStep f bs r s = .next t) :
    (¬ LegalSize bs ∧ t = s.failed .invalidBlockSize) ∨
    (LegalSize bs ∧ s.NoSchedule bs r ∧ t = s.failed .noSchedule) ∨
    (LegalSize bs ∧ ¬ s.NoSchedule bs r ∧ t = (s.storeState (f (s.stateBytes bs))).complete .ok) := by
  unfold keyedStep at h
  split at h
  · next hb => exact .inl ⟨hb, (raise_next.mp h).symm⟩
  · next hb =>
    split at h
    · next hn => exact .inr (.inl ⟨Decidable.not_not.mp hb, hn, (raise_next.mp h).symm⟩)
    · next hn => exact .inr (.inr ⟨Decidable.not_not.mp hb, hn, (finish_next.mp h).symm⟩)

/-- KEY_EXPAND (41 R265): one of its two errors, or the schedule of the constructed key. -/
theorem execKeyExpand_cases {bs : Nat} {s t : State} (h : execKeyExpand bs s = .next t) :
    (∃ c, c ≠ .ok ∧ t = s.failed c) ∨
    (s.cfgValid = true ∧ LegalSize bs ∧
      t = (s.storeSchedule (expand s.cipherKey bs) bs (roundCount s.cfgKlen.toNat bs)).complete .ok) := by
  unfold execKeyExpand at h
  split at h
  · exact .inl ⟨_, by decide, (raise_next.mp h).symm⟩
  · next h1 =>
    split at h
    · exact .inl ⟨_, by decide, (raise_next.mp h).symm⟩
    · next h2 => exact .inr ⟨by simpa using h1, Decidable.not_not.mp h2, (finish_next.mp h).symm⟩

/-- PAD (44 R420): one of its errors, or the padded input in OUT. -/
theorem execPad_cases {p : Scheme} {bs : Nat} {s t : State} (h : execPad p bs s = .next t) :
    (∃ c, c ≠ .ok ∧ t = s.failed c) ∨
    (LegalSize bs ∧ ¬ s.InOverflow ∧ ¬ (p = .none ∧ s.Unaligned bs) ∧
      t = ((s.storeOut (padBytes s.inData bs s.filler p)).drawRng (fillerCount s.inLen.toNat bs p)).complete .ok) := by
  unfold execPad at h
  split at h
  · exact .inl ⟨_, by decide, (raise_next.mp h).symm⟩
  · next h1 =>
    split at h
    · exact .inl ⟨_, by decide, (raise_next.mp h).symm⟩
    · next h2 =>
      split at h
      · exact .inl ⟨_, by decide, (raise_next.mp h).symm⟩
      · next h3 => exact .inr ⟨Decidable.not_not.mp h1, h2, h3, (finish_next.mp h).symm⟩

/-- UNPAD (44 R422): one of its errors, or the unpadded input in OUT. -/
theorem execUnpad_cases {p : Scheme} {bs : Nat} {s t : State} (h : execUnpad p bs s = .next t) :
    (∃ c, c ≠ .ok ∧ t = s.failed c) ∨
    (LegalSize bs ∧ ¬ s.InOverflow ∧ ¬ (p = .none ∧ s.Unaligned bs) ∧
      ∃ u, unpadBytes s.inData bs p = some u ∧ t = (s.storeOut u).complete .ok) := by
  unfold execUnpad at h
  split at h
  · exact .inl ⟨_, by decide, (raise_next.mp h).symm⟩
  · next h1 =>
    split at h
    · exact .inl ⟨_, by decide, (raise_next.mp h).symm⟩
    · next h2 =>
      split at h
      · exact .inl ⟨_, by decide, (raise_next.mp h).symm⟩
      · next h3 =>
        split at h
        · exact .inl ⟨_, by decide, (raise_next.mp h).symm⟩
        · next u hu => exact .inr ⟨Decidable.not_not.mp h1, h2, h3, u, hu, (finish_next.mp h).symm⟩

/-- ENCRYPT (43 R360): one of its errors, or the schedule, the ciphertext in OUT and in CBC the chain value. -/
theorem execEncrypt_cases {bs : Nat} {s t : State} (h : execEncrypt bs s = .next t) :
    (∃ c, c ≠ .ok ∧ t = s.failed c) ∨
    (s.cfgValid = true ∧ LegalSize bs ∧ ¬ s.InOverflow ∧ ¬ s.IvMismatch bs ∧ ¬ (s.cfgPad = .none ∧ s.Unaligned bs) ∧
      ∃ w r, w = expand s.cipherKey bs ∧
        r = chainEnc (padBytes s.inData bs s.filler s.cfgPad) w bs (roundCount s.cfgKlen.toNat bs) s.cfgMode (s.ivBytes bs) ∧
        t = ((s.storeCipher w bs (roundCount s.cfgKlen.toNat bs) r.1 r.2).drawRng
          (fillerCount s.inLen.toNat bs s.cfgPad)).complete .ok) := by
  unfold execEncrypt at h
  split at h
  · exact .inl ⟨_, by decide, (raise_next.mp h).symm⟩
  · next h1 =>
    split at h
    · exact .inl ⟨_, by decide, (raise_next.mp h).symm⟩
    · next h2 =>
      split at h
      · exact .inl ⟨_, by decide, (raise_next.mp h).symm⟩
      · next h3 =>
        split at h
        · exact .inl ⟨_, by decide, (raise_next.mp h).symm⟩
        · next h4 =>
          split at h
          · exact .inl ⟨_, by decide, (raise_next.mp h).symm⟩
          · next h5 =>
            exact .inr ⟨by simpa using h1, Decidable.not_not.mp h2, h3, h4, h5, _, _, rfl, rfl, (finish_next.mp h).symm⟩

/-- DECRYPT (43 R362): one of its errors, or the schedule, the unpadded plaintext in OUT and in CBC the chain value. -/
theorem execDecrypt_cases {bs : Nat} {s t : State} (h : execDecrypt bs s = .next t) :
    (∃ c, c ≠ .ok ∧ t = s.failed c) ∨
    (s.cfgValid = true ∧ LegalSize bs ∧ ¬ s.InOverflow ∧ ¬ s.IvMismatch bs ∧ ¬ s.Unaligned bs ∧
      ∃ w r u, w = expand s.cipherKey bs ∧
        r = chainDec s.inData w bs (roundCount s.cfgKlen.toNat bs) s.cfgMode (s.ivBytes bs) ∧
        unpadBytes r.1 bs s.cfgPad = some u ∧
        t = (s.storeCipher w bs (roundCount s.cfgKlen.toNat bs) u r.2).complete .ok) := by
  unfold execDecrypt at h
  split at h
  · exact .inl ⟨_, by decide, (raise_next.mp h).symm⟩
  · next h1 =>
    split at h
    · exact .inl ⟨_, by decide, (raise_next.mp h).symm⟩
    · next h2 =>
      split at h
      · exact .inl ⟨_, by decide, (raise_next.mp h).symm⟩
      · next h3 =>
        split at h
        · exact .inl ⟨_, by decide, (raise_next.mp h).symm⟩
        · next h4 =>
          split at h
          · exact .inl ⟨_, by decide, (raise_next.mp h).symm⟩
          · next h5 =>
            simp only at h
            split at h
            · exact .inl ⟨_, by decide, (raise_next.mp h).symm⟩
            · next u hu =>
              exact .inr ⟨by simpa using h1, Decidable.not_not.mp h2, h3, h4, h5, _, _, u, rfl, rfl, hu,
                (finish_next.mp h).symm⟩

/-- CONSTRUCT (45 R452): the emptied slot with InvalidKeySize, or the filled slot. -/
theorem execConstruct_cases {md : Mode} {p : Scheme} {klen : Nat} {s t : State} (h : execConstruct md p klen s = .next t) :
    (¬ LegalSize klen ∧ t = s.clearSlot.clearSchedule.failed .invalidKeySize) ∨
    (LegalSize klen ∧ t = (s.setSlot (s.latchedKey klen) md p klen).clearSchedule.complete .ok) := by
  unfold execConstruct at h
  split at h
  · next hb => exact .inl ⟨hb, (raise_next.mp h).symm⟩
  · next hb => exact .inr ⟨Decidable.not_not.mp hb, (finish_next.mp h).symm⟩

/-- CHAIN is written in CBC only (10_state R68). -/
theorem storeChain_eq (s : State) (md : Mode) (l : Bytes) :
    s.storeChain md l = s.setMem (if md = .cbc then s.mem.writeBytes chainBase l else s.mem) := by
  cases md <;> rfl

/-- Everything one step can do (20_memory R115): held in reset, a completion, or a host step. -/
theorem step_cases {s t : State} (h : step s = .next t) :
    (s.rst = true ∧ (t = s ∨ (∃ es, s.host = .rstFall :: es ∧ t = { s with rst := false, host := es }) ∨
      ∃ es, s.host = .rstRise :: es ∧ t = { s with host := es })) ∨
    (s.rst = false ∧ s.seq = .idle ∧ t = hostStep s) ∨
    (s.rst = false ∧ ∃ w k, s.seq = .executing w (k + 1) ∧ t = hostStep { s with seq := .executing w k }) ∨
    (s.rst = false ∧ ∃ w i, s.seq = .executing w 0 ∧ decode w = .ok i ∧ exec i s = .next t) ∨
    (s.rst = false ∧ ∃ w e, s.seq = .executing w 0 ∧ decode w = .error e ∧ t = s.failed .illegalCommand) := by
  unfold step at h
  split at h
  · next hr =>
    refine .inl ⟨hr, ?_⟩
    unfold heldInReset at h
    split at h
    · exact .inl (next_inj.mp h).symm
    · next es hes => exact .inr (.inl ⟨es, hes, (next_inj.mp h).symm⟩)
    · next es hes => exact .inr (.inr ⟨es, hes, (next_inj.mp h).symm⟩)
    · cases h
  · next hr =>
    have hr : s.rst = false := by simpa using hr
    split at h
    · next hs => exact .inr (.inl ⟨hr, hs, (next_inj.mp h).symm⟩)
    · next w k hs => exact .inr (.inr (.inl ⟨hr, w, k, hs, (next_inj.mp h).symm⟩))
    · next w hs =>
      split at h
      · next i hi => exact .inr (.inr (.inr (.inl ⟨hr, w, i, hs, hi, h⟩)))
      · next e he => exact .inr (.inr (.inr (.inr ⟨hr, w, e, hs, he, (raise_next.mp h).symm⟩)))

/-- A host step takes the next event, or waits. -/
theorem hostStep_cases (s : State) :
    (s.host = [] ∧ hostStep s = s) ∨ ∃ e es, s.host = e :: es ∧ hostStep s = hostEvent { s with host := es } e := by
  unfold hostStep
  split
  · next h => exact .inl ⟨h, rfl⟩
  · next e es h => exact .inr ⟨e, es, h, rfl⟩

/-- A host read answers and leaves everything else but the busy-window draws (20_memory R110). -/
theorem hostRead_shape (s : State) (off n : Nat) :
    ∃ a d, hostRead s off n = { s with resp := some a, busyDraws := d } := by
  unfold hostRead
  split
  · exact ⟨_, s.busyDraws, rfl⟩
  · split
    · exact ⟨_, _, rfl⟩
    · exact ⟨_, s.busyDraws, rfl⟩

/-- What a host write can do (20_memory R107, R111). -/
theorem hostWrite_cases (s : State) (off n : Nat) (v : Word) :
    (¬ Permitted off n ∧ hostWrite s off n v = s.respond .busError) ∨
    (Permitted off n ∧
      ((off = 0x004 ∧ hostWrite s off n v = (s.writeStatus v).respond .ack) ∨
       (off = 0x010 ∧ hostWrite s off n v = (s.writeCtrl v).respond .ack) ∨
       (s.busy = true ∧ hostWrite s off n v = s.setOvr.respond .ack) ∨
       (s.busy = false ∧ off = 0x000 ∧ hostWrite s off n v = (s.issue v).respond .ack) ∨
       (s.busy = false ∧ off = 0x014 ∧ hostWrite s off n v = State.respond { s with inLen := v } .ack) ∨
       (s.busy = false ∧ off = 0x01C ∧ hostWrite s off n v = State.respond { s with ivLen := v.extractLsb' 0 8 } .ack) ∨
       (s.busy = false ∧
         hostWrite s off n v = (s.setMem (hostWriteBytes s.inCap s.mem off (laneBytes v n))).respond .ack))) := by
  unfold hostWrite
  by_cases hp : Permitted off n
  · rw [if_neg (not_not_intro hp)]
    refine .inr ⟨hp, ?_⟩
    unfold writeEffect
    split
    · next h => exact .inl ⟨h, rfl⟩
    · split
      · next h => exact .inr (.inl ⟨h, rfl⟩)
      · split
        · next h => exact .inr (.inr (.inl ⟨h, rfl⟩))
        · next hb =>
          have hb : s.busy = false := by simpa using hb
          split
          · next h => exact .inr (.inr (.inr (.inl ⟨hb, h, rfl⟩)))
          · split
            · next h => exact .inr (.inr (.inr (.inr (.inl ⟨hb, h, rfl⟩))))
            · split
              · next h => exact .inr (.inr (.inr (.inr (.inr (.inl ⟨hb, h, rfl⟩)))))
              · exact .inr (.inr (.inr (.inr (.inr (.inr ⟨hb, rfl⟩)))))
  · rw [if_pos hp]; exact .inl ⟨hp, rfl⟩

/-- A byte read after a host write: the byte written where the host may write, else as before (20_memory R104, R108). -/
theorem read_hostWriteBytes (inCap : Nat) (m : Memory) (off : Nat) (bs : Bytes) (x : Nat) :
    (hostWriteBytes inCap m off bs).read x =
      if off ≤ x ∧ x < off + bs.length ∧ hostWritable inCap x = true then bs.getD (x - off) 0 else m.read x := by
  induction bs generalizing m off with
  | nil => simp [hostWriteBytes]; intro h1 h2; omega
  | cons b bs ih =>
    rw [hostWriteBytes, ih]
    by_cases h1 : off + 1 ≤ x ∧ x < off + 1 + bs.length ∧ hostWritable inCap x = true
    · rw [if_pos h1, if_pos ⟨by omega, by simp; omega, h1.2.2⟩]
      obtain ⟨k, rfl⟩ : ∃ k, x = off + 1 + k := ⟨x - (off + 1), by omega⟩
      rw [show off + 1 + k - (off + 1) = k by omega, show off + 1 + k - off = k + 1 by omega]
      simp
    · rw [if_neg h1]
      by_cases h2 : x = off
      · subst h2
        by_cases hw : hostWritable inCap x = true
        · simp [hw, Memory.read_write]
        · simp [hw]
      · have : ¬ (off ≤ x ∧ x < off + (b :: bs).length ∧ hostWritable inCap x = true) := by
          rintro ⟨a1, a2, a3⟩
          exact h1 ⟨by omega, by simp at a2; omega, a3⟩
        rw [if_neg this]
        split
        · rw [Memory.read_write, if_neg h2]
        · rfl

/-- A host write keeps the canonical form of the memory. -/
theorem wf_hostWriteBytes {inCap : Nat} {m : Memory} (h : m.wf = true) (off : Nat) (bs : Bytes) :
    (hostWriteBytes inCap m off bs).wf = true := by
  induction bs generalizing m off with
  | nil => exact h
  | cons b bs ih =>
    rw [hostWriteBytes]
    split
    · exact ih (Memory.wf_write h _ _) _
    · exact ih h _

end Sys2Proof.Machine
end

