-- ==== Sys2Proof/Laws/PerInstr.lean ====
section
/-! SUPPORT. Per command, as syntax: its encoding has the fixed bits of its row of spec/opcode_table.json (mask and match), for
every value of its fields. -/

namespace Sys2Proof.Laws.TableRow

/-- The row's mask in spec/opcode_table.json. -/
def rowMask : Instr → Word
  | .nop => 0xFFFFFFFF
  | .construct _ _ _ => 0xFF00F0FF
  | .zeroize => 0xFFFFFFFF
  | .keyExpand _ => 0xFFFF00FF
  | .encBlock _ => 0xFFFF00FF
  | .decBlock _ => 0xFFFF00FF
  | .subBytes _ => 0xFFFF00FF
  | .invSubBytes _ => 0xFFFF00FF
  | .shiftRows _ => 0xFFFF00FF
  | .invShiftRows _ => 0xFFFF00FF
  | .mixColumns _ => 0xFFFF00FF
  | .invMixColumns _ => 0xFFFF00FF
  | .addRoundKey _ _ => 0xFFF000FF
  | .encrypt _ => 0xFFFF00FF
  | .decrypt _ => 0xFFFF00FF
  | .pad _ _ => 0xFFF800FF
  | .unpad _ _ => 0xFFF800FF

/-- The row's match in spec/opcode_table.json: its opcode, every other fixed bit 0. -/
def rowMatch (i : Instr) : Word := i.opcode.setWidth 32

/-- The command's word has its row's fixed bits. -/
def Statement (i : Instr) : Prop := encode i &&& rowMask i = rowMatch i

theorem maskK (op : Byte) (md : Mode) (p : Scheme) (n : Nat) : encodeK op md p n &&& 0xFF00F0FF = op.setWidth 32 := by
  apply BitVec.eq_of_getLsbD_eq
  intro k hk
  rw [BitVec.getLsbD_and, getLsbD_encodeK]
  interval_cases k <;> simp

theorem maskB (op : Byte) (bs : Nat) : encodeB op bs &&& 0xFFFF00FF = op.setWidth 32 := by
  apply BitVec.eq_of_getLsbD_eq
  intro k hk
  rw [BitVec.getLsbD_and, getLsbD_encodeB]
  interval_cases k <;> simp

theorem maskR (op : Byte) (bs r : Nat) : encodeR op bs r &&& 0xFFF000FF = op.setWidth 32 := by
  apply BitVec.eq_of_getLsbD_eq
  intro k hk
  rw [BitVec.getLsbD_and, getLsbD_encodeR]
  interval_cases k <;> simp

theorem maskP (op : Byte) (p : Scheme) (bs : Nat) : encodeP op p bs &&& 0xFFF800FF = op.setWidth 32 := by
  apply BitVec.eq_of_getLsbD_eq
  intro k hk
  rw [BitVec.getLsbD_and, getLsbD_encodeP]
  interval_cases k <;> simp

theorem nop : Statement .nop := by unfold Statement; decide
theorem construct (md : Mode) (p : Scheme) (n : Nat) : Statement (.construct md p n) := maskK _ _ _ _
theorem zeroize : Statement .zeroize := by unfold Statement; decide
theorem keyExpand (bs : Nat) : Statement (.keyExpand bs) := maskB _ _
theorem encBlock (bs : Nat) : Statement (.encBlock bs) := maskB _ _
theorem decBlock (bs : Nat) : Statement (.decBlock bs) := maskB _ _
theorem subBytes (bs : Nat) : Statement (.subBytes bs) := maskB _ _
theorem invSubBytes (bs : Nat) : Statement (.invSubBytes bs) := maskB _ _
theorem shiftRows (bs : Nat) : Statement (.shiftRows bs) := maskB _ _
theorem invShiftRows (bs : Nat) : Statement (.invShiftRows bs) := maskB _ _
theorem mixColumns (bs : Nat) : Statement (.mixColumns bs) := maskB _ _
theorem invMixColumns (bs : Nat) : Statement (.invMixColumns bs) := maskB _ _
theorem addRoundKey (bs r : Nat) : Statement (.addRoundKey bs r) := maskR _ _ _
theorem encrypt (bs : Nat) : Statement (.encrypt bs) := maskB _ _
theorem decrypt (bs : Nat) : Statement (.decrypt bs) := maskB _ _
theorem pad (p : Scheme) (bs : Nat) : Statement (.pad p bs) := maskP _ _ _
theorem unpad (p : Scheme) (bs : Nat) : Statement (.unpad p bs) := maskP _ _ _

end Sys2Proof.Laws.TableRow
end

