-- ==== Sys2Proof/Laws/Rounds.lean ====
section
/-! SUPPORT. The lengths of what the round steps, the block transforms, the padding and the chaining give. -/

namespace Sys2Proof.Machine

theorem length_xorBytes (a b : Bytes) : (xorBytes a b).length = min a.length b.length := by simp [xorBytes]

@[simp] theorem length_subBytes (b : Bytes) : (subBytes b).length = b.length := by simp [subBytes]
@[simp] theorem length_invSubBytes (b : Bytes) : (invSubBytes b).length = b.length := by simp [invSubBytes]
@[simp] theorem length_shiftRows (b : Bytes) : (shiftRows b).length = b.length := by simp [shiftRows, permute]
@[simp] theorem length_invShiftRows (b : Bytes) : (invShiftRows b).length = b.length := by simp [invShiftRows, permute]

/-- A map of columns that keeps four bytes a column keeps the length. -/
theorem length_mapColumns {f : Byte → Byte → Byte → Byte → Bytes} (hf : ∀ a b c d, (f a b c d).length = 4) (b : Bytes) :
    (mapColumns f b).length = b.length := by
  induction b using mapColumns.induct with
  | case1 a0 a1 a2 a3 rest ih => simp [mapColumns, hf, ih]; omega
  | case2 rest h =>
    rw [mapColumns]
    exact h

@[simp] theorem length_mixColumns (b : Bytes) : (mixColumns b).length = b.length :=
  length_mapColumns (fun _ _ _ _ => rfl) b
@[simp] theorem length_invMixColumns (b : Bytes) : (invMixColumns b).length = b.length :=
  length_mapColumns (fun _ _ _ _ => rfl) b

theorem length_addRoundKey {b k : Bytes} (h : k.length = b.length) : (addRoundKey b k).length = b.length := by
  simp [addRoundKey, length_xorBytes, h]

/-- Rounds keep the block's length where the round keys have it. -/
theorem length_foldl_round {rk : Nat → Bytes} {n : Nat} {f : Bytes → Nat → Bytes}
    (hf : ∀ b r, b.length = n → (rk r).length = n → (f b r).length = n) (rs : List Nat) {b : Bytes} (hb : b.length = n)
    (hk : ∀ r ∈ rs, (rk r).length = n) : (rs.foldl f b).length = n := by
  induction rs generalizing b with
  | nil => exact hb
  | cons r rs ih =>
    exact ih (hf b r hb (hk r (by simp))) fun r' hr' => hk r' (by simp [hr'])

/-- encBlock keeps the block's length (42 R312). -/
theorem length_encryptBlock {rk : Nat → Bytes} {nr : Nat} {b : Bytes} (hk : ∀ r, r ≤ nr → (rk r).length = b.length) :
    (encryptBlock rk nr b).length = b.length := by
  have h0 := length_addRoundKey (hk 0 (Nat.zero_le _))
  have h1 : ((List.range' 1 (nr - 1)).foldl (encRound rk) (addRoundKey b (rk 0))).length = b.length := by
    refine length_foldl_round (rk := rk) ?_ _ h0 ?_
    · intro c r hc hr
      rw [encRound, length_addRoundKey] <;> simp [hc, hr]
    · intro r hr
      simp at hr
      exact hk r (by omega)
  have h2 := length_addRoundKey (b := shiftRows (subBytes ((List.range' 1 (nr - 1)).foldl (encRound rk) (addRoundKey b (rk 0)))))
    (k := rk nr) (by rw [length_shiftRows, length_subBytes, h1, hk nr le_rfl])
  rw [encryptBlock, h2, length_shiftRows, length_subBytes, h1]

/-- decBlock keeps the block's length (42 R313). -/
theorem length_decryptBlock {rk : Nat → Bytes} {nr : Nat} {b : Bytes} (hk : ∀ r, r ≤ nr → (rk r).length = b.length) :
    (decryptBlock rk nr b).length = b.length := by
  have h0 := length_addRoundKey (hk nr le_rfl)
  have h1 : ((List.range' 1 (nr - 1)).reverse.foldl (decRound rk)
      (invSubBytes (invShiftRows (addRoundKey b (rk nr))))).length = b.length := by
    refine length_foldl_round (rk := rk) ?_ _ (by simp [h0]) ?_
    · intro c r hc hr
      simp only [decRound, length_invSubBytes, length_invShiftRows, length_invMixColumns]
      rw [length_addRoundKey] <;> simp [hc, hr]
    · intro r hr
      simp at hr
      exact hk r (by omega)
  rw [decryptBlock, length_addRoundKey, h1]
  rw [h1, hk 0 (Nat.zero_le _)]

/-- A round key of a schedule that reaches that far has a block's length (41 R257). -/
theorem length_roundKeyOf {w : Bytes} {bs r : Nat} (h : (r + 1) * bs ≤ w.length) : (roundKeyOf w bs r).length = bs := by
  have : (r + 1) * bs = r * bs + bs := by rw [Nat.add_mul, Nat.one_mul]
  simp [roundKeyOf]
  omega

end Sys2Proof.Machine
end

