-- ==== Sys2Proof/Machine/HostProgram.lean ====
section
/-! DEFINITION. The notation of 30_encoding: the command syntax (R162), and the host statements and pseudo-instructions
(R163) as the bus events they stand for. Labels, branches and WAIT's loop are the host's own and make no bus access of their
own beyond the STATUS reads of R32. -/

namespace Sys2Proof.Machine

/-- A 4-, 2- and 1-byte write at an offset (R163). -/
def w32 (off : BitVec 18) (v : Word) : HostEvent := .access { off := off, write := true, size := 4, wdata := v }
def w16 (off : BitVec 18) (v : Word) : HostEvent := .access { off := off, write := true, size := 2, wdata := v }
def w8 (off : BitVec 18) (b : Byte) : HostEvent := .access { off := off, write := true, size := 1, wdata := b.setWidth 32 }

/-- A 4- and a 1-byte read at an offset (R163). -/
def r32 (off : BitVec 18) : HostEvent := .access { off := off, write := false, size := 4, wdata := 0 }
def r8 (off : BitVec 18) : HostEvent := .access { off := off, write := false, size := 1, wdata := 0 }

/-- ISSUE (R163): the assembled word to CMD. -/
def issueCmd (i : Instr) : HostEvent := w32 0x000 (encode i)

/-- WBYTES (R163): one byte write per byte, in order. -/
def wbytes (off : BitVec 18) : Bytes → List HostEvent
  | [] => []
  | b :: bs => w8 off b :: wbytes (off + 1) bs

/-- RBYTES (R163): one byte read per offset, in order. -/
def rbytes (off : BitVec 18) (n : Nat) : List HostEvent := (List.range n).map fun k => r8 (off + BitVec.ofNat 18 k)

/-- SETLEN IN and SETLEN IV (R163). -/
def setLenIn (n : Nat) : HostEvent := w32 0x014 (BitVec.ofNat 32 n)
def setLenIv (n : Nat) : HostEvent := w32 0x01C (BitVec.ofNat 32 n)

/-- MemRead(addr, n) and MemWrite(addr, n, v) of R16 at a bus address, where it lies in the block's window (R101). -/
def memRead (addr n : Nat) : Option HostEvent :=
  (windowOffset addr).map fun off => .access { off := off, write := false, size := n, wdata := 0 }
def memWrite (addr n : Nat) (v : Word) : Option HostEvent :=
  (windowOffset addr).map fun off => .access { off := off, write := true, size := n, wdata := v }

/-- The names of the modes and schemes in the command syntax (R162). -/
def modeName : Mode → String
  | .ecb => "ECB"
  | .cbc => "CBC"
def schemeName : Scheme → String
  | .zero => "Zero"
  | .none => "None"
  | .pkcs7 => "PKCS7"
  | .ansix923 => "ANSIX923"
  | .iso10126 => "ISO10126"

/-- A command in the syntax of R162, its fields in decimal. -/
def commandText : Instr → String
  | .nop => "NOP"
  | .construct m p k => "CONSTRUCT " ++ modeName m ++ ", " ++ schemeName p ++ ", " ++ toString k
  | .zeroize => "ZEROIZE"
  | .keyExpand bs => "KEY_EXPAND " ++ toString bs
  | .encBlock bs => "ENC_BLOCK " ++ toString bs
  | .decBlock bs => "DEC_BLOCK " ++ toString bs
  | .subBytes bs => "SUB_BYTES " ++ toString bs
  | .invSubBytes bs => "INV_SUB_BYTES " ++ toString bs
  | .shiftRows bs => "SHIFT_ROWS " ++ toString bs
  | .invShiftRows bs => "INV_SHIFT_ROWS " ++ toString bs
  | .mixColumns bs => "MIX_COLUMNS " ++ toString bs
  | .invMixColumns bs => "INV_MIX_COLUMNS " ++ toString bs
  | .addRoundKey bs r => "ADD_ROUND_KEY " ++ toString bs ++ ", " ++ toString r
  | .encrypt bs => "ENCRYPT " ++ toString bs
  | .decrypt bs => "DECRYPT " ++ toString bs
  | .pad p bs => "PAD " ++ schemeName p ++ ", " ++ toString bs
  | .unpad p bs => "UNPAD " ++ schemeName p ++ ", " ++ toString bs

end Sys2Proof.Machine
end

