-- ==== Sys2Proof/Tests/Slice0.lean ====
section
/-! SUPPORT. Small tests of the model with results from the spec's own vectors (95_test_vectors and the rules' examples), the
smoke tests of well-formedness, and for each statement with hypotheses a witness that meets them. -/

namespace Sys2Proof.Machine.Tests

/-! ## States -/

/-- Idle after reset and ZEROIZE: every buffer byte 0 (45 R456). -/
def idle0 : State := { State.reset with mem := Memory.zeroed, ckey := Vector.replicate 32 0 }

/-- `s` with bytes of a buffer set. -/
def withBytes (s : State) (a : Nat) (b : Bytes) : State := s.setMem (s.mem.writeBytes a b)

/-- `s` with input data in IN and IN_LEN. -/
def withInput (s : State) (b : Bytes) : State := { withBytes s inBase b with inLen := BitVec.ofNat 32 b.length }

/-- `s` with an ECB cipher of a 16-byte zero key and a padding. -/
def withCipher (s : State) (md : Mode) (p : Scheme) : State :=
  { s with cfgValid := true, cfgMode := md, cfgPad := p, cfgKlen := 16 }

/-- `s` with a word executing and `k` steps of LATENCY left. -/
def busyWith (s : State) (w : Word) (k : Nat) : State := { s with seq := .executing w k }

/-- The next state of a command, for a command that gives one. -/
def after (i : Instr) (s : State) : State :=
  match exec i s with
  | .next t => t
  | .fault _ => s
  | .refused _ => s

/-- `n` bytes a, a + 1, … -/
def upFrom (a n : Nat) : Bytes := (List.range n).map fun k => BitVec.ofNat 8 (a + k)

/-- STATE holds 00 01 … 1F (95 section 2.3). -/
def counting : State := withBytes idle0 stateBase (upFrom 0 32)

/-- A cipher of the 16-byte zero key in CBC with PKCS7, IV_LEN 16, its schedule in RK, a CBC IV of zeros. -/
def keyed : State :=
  { withCipher (withBytes idle0 rkBase (expand (List.replicate 16 0) 16)) .cbc .pkcs7 with
    ivLen := 16, rkValid := true, rkBs := 16, rkNr := 10 }

/-- A read request and a write request on the bus port. -/
def readReq (off : BitVec 18) (n : Nat) : BusRequest := { off := off, write := false, size := n, wdata := 0 }
def writeReq (off : BitVec 18) (n : Nat) (v : Word) : BusRequest := { off := off, write := true, size := n, wdata := v }

/-! ## Well-formedness: an ill-formed term for each check -/

theorem test_wf_refuses_wide_klen : ¬ (Instr.construct .ecb .zero 256).WellFormed := by decide
theorem test_wf_refuses_wide_bs :
    ([Instr.keyExpand 256, .encBlock 256, .decBlock 256, .subBytes 256, .invSubBytes 256, .shiftRows 256, .invShiftRows 256,
      .mixColumns 256, .invMixColumns 256, .addRoundKey 256 0, .encrypt 256, .decrypt 256, .pad .zero 256,
      .unpad .zero 256].all fun i => !i.wellFormed) = true := by decide
theorem test_wf_refuses_wide_round : ¬ (Instr.addRoundKey 16 16).WellFormed := by decide
theorem test_wf_admits_largest :
    ([Instr.nop, .construct .cbc .iso10126 255, .zeroize, .addRoundKey 255 15, .unpad .iso10126 255].all
      Instr.wellFormed) = true := by decide

/-! ## Decoding: words written out from 30_encoding, field by field -/

/-- Format N (R151). -/
theorem test_decode_format_n :
    decode 0b000000000000000000000000_00000000 = .ok .nop ∧
    decode 0b000000000000000000000000_00000010 = .ok .zeroize := by decide
/-- Format K (R152): 00000000 KKKKKKKK 0000 PPP M OP. -/
theorem test_decode_construct :
    decode 0b00000000_00100000_0000_100_1_00000001 = .ok (.construct .cbc .iso10126 32) := by decide
/-- Format B (R153), one word for each opcode (R158). -/
theorem test_decode_format_b :
    decode 0b0000000000000000_00010000_00010000 = .ok (.keyExpand 16) ∧
    decode 0b0000000000000000_00011000_00010001 = .ok (.encBlock 24) ∧
    decode 0b0000000000000000_00100000_00010010 = .ok (.decBlock 32) ∧
    decode 0b0000000000000000_00010000_00100000 = .ok (.subBytes 16) ∧
    decode 0b0000000000000000_00010000_00100001 = .ok (.invSubBytes 16) ∧
    decode 0b0000000000000000_00010000_00100010 = .ok (.shiftRows 16) ∧
    decode 0b0000000000000000_00010000_00100011 = .ok (.invShiftRows 16) ∧
    decode 0b0000000000000000_00010000_00100100 = .ok (.mixColumns 16) ∧
    decode 0b0000000000000000_10000000_00100101 = .ok (.invMixColumns 128) ∧
    decode 0b0000000000000000_00100000_00110000 = .ok (.encrypt 32) ∧
    decode 0b0000000000000000_00010000_00110001 = .ok (.decrypt 16) := by decide
/-- Format R (R154): 000000000000 RRRR BBBBBBBB OP. -/
theorem test_decode_add_round_key :
    decode 0b000000000000_1111_00010000_00100110 = .ok (.addRoundKey 16 15) := by decide
/-- Format P (R155): 0000000000000 SSS BBBBBBBB OP. -/
theorem test_decode_format_p :
    decode 0b0000000000000_011_00011000_01000000 = .ok (.pad .ansix923 24) ∧
    decode 0b0000000000000_001_00011000_01000001 = .ok (.unpad .none 24) := by decide
/-- Illegal words of V153. -/
theorem test_decode_illegal :
    ([0x00000003, 0x000000FF, 0x00000013, 0x00000027, 0x00000032, 0x00000042, 0x00000103, 0x0000E001, 0x00200C01, 0x00010010,
      0x80001011, 0x00101026, 0x00081040, 0x00091041, 0x01000000, 0x00000102].all fun w => !(decode w).toBool) = true := by
  decide
/-- The encoder gives the words of R162. -/
theorem test_encode_examples :
    encode (.construct .cbc .pkcs7 16) = 0x00100501 ∧ encode (.addRoundKey 16 3) = 0x00031026 ∧
    encode (.unpad .none 24) = 0x00011841 := by decide
/-- The command syntax of R162. -/
theorem test_command_text :
    commandText (.construct .cbc .iso10126 32) = "CONSTRUCT CBC, ISO10126, 32" ∧
    commandText (.pad .pkcs7 16) = "PAD PKCS7, 16" := by decide +kernel

/-! ## Tables -/

/-- R211. -/
theorem test_tables :
    [sbox 0x00, sbox 0x01, sbox 0x53, sbox 0xFF, invSbox 0x63, invSbox 0xED, gfMul2 0x80, gfMul3 0xFF, gfMul9 0xFF,
      gfMul11 0xFF, gfMul13 0xFF, gfMul14 0xFF, rcon 9, rcon 10, rcon 29] =
    [0x63, 0x7C, 0xED, 0x16, 0x00, 0x53, 0x1B, 0x1A, 0x46, 0xA3, 0x97, 0x8D, 0x1B, 0x36, 0xC5] := by decide
/-- P_24 of R304 and Q_32 of R305. -/
theorem test_shift_tables :
    (List.range 24).map (shiftIndex 24) =
      [0, 5, 10, 15, 4, 9, 14, 19, 8, 13, 18, 23, 12, 17, 22, 3, 16, 21, 2, 7, 20, 1, 6, 11] ∧
    (List.range 32).map (invShiftIndex 32) =
      [0, 29, 22, 19, 4, 1, 26, 23, 8, 5, 30, 27, 12, 9, 2, 31, 16, 13, 6, 3, 20, 17, 10, 7, 24, 21, 14, 11, 28, 25, 18, 15] := by
  decide

/-! ## Commands, one step each -/

/-- V120: NOP sets DONE and clears ERR. -/
theorem test_nop : (after .nop { idle0 with errcode := .noSchedule }).statusWord = 0x00000002 := by decide
/-- V124 and R452: CFG and STATUS after CONSTRUCT; CKEY takes KEY. -/
theorem test_construct :
    let t := after (.construct .cbc .iso10126 32) (withBytes keyed keyBase [0x80])
    t.cfgWord = 0x00002009 ∧ t.statusWord = 0x00000012 ∧ t.rkInfoWord = 0 ∧ t.ckeyByte 0 = 0x80 := by decide +kernel
/-- S11: a 17-byte key. -/
theorem test_construct_bad_key :
    (after (.construct .ecb .zero 17) keyed).statusWord = 0x00000006 ∧
    (after (.construct .ecb .zero 17) keyed).cfgWord = 0 := by decide +kernel
/-- V136: ZEROIZE clears STATE and the lengths and keeps CTRL.IE; irq = 1. -/
theorem test_zeroize :
    let t := after .zeroize { withBytes idle0 stateBase (List.replicate 32 1) with inLen := 8, ivLen := 16, ie := true }
    t.stateBytes 32 = List.replicate 32 0 ∧ t.inLen = 0 ∧ t.ivLen = 0 ∧ t.statusWord = 2 ∧ t.irq = true := by decide +kernel
/-- V31: round key 1 of the zero key begins 62636363. -/
theorem test_key_expand :
    let t := after (.keyExpand 16) (withCipher idle0 .ecb .zero)
    t.rkInfoWord = 0x00000A10 ∧ t.mem.readBytes (rkBase + 16) 4 = [0x62, 0x63, 0x63, 0x63] := by decide +kernel
/-- V36: no cipher. -/
theorem test_key_expand_no_cipher : (after (.keyExpand 16) idle0).statusWord = 0x00000006 := by decide
/-- V32: the sbox-only word of a 32-byte key, and the word before it (R256). -/
theorem test_expand_extra_step :
    (expandLoop 32 5 1 (upFrom 0 32)).drop 44 = [0xA5, 0x72, 0xC0, 0x9C, 0x16, 0x51, 0xA8, 0xCD] := by decide +kernel
/-- V201. -/
theorem test_sub_bytes :
    (after (.subBytes 24) counting).stateBytes 26 =
      [0x63, 0x7C, 0x77, 0x7B, 0xF2, 0x6B, 0x6F, 0xC5, 0x30, 0x01, 0x67, 0x2B, 0xFE, 0xD7, 0xAB, 0x76, 0xCA, 0x82, 0xC9, 0x7D,
        0xFA, 0x59, 0x47, 0xF0, 0x18, 0x19] := by decide +kernel
/-- V203. -/
theorem test_inv_sub_bytes :
    (after (.invSubBytes 16) counting).stateBytes 16 =
      [0x52, 0x09, 0x6A, 0xD5, 0x30, 0x36, 0xA5, 0x38, 0xBF, 0x40, 0xA3, 0x9E, 0x81, 0xF3, 0xD7, 0xFB] := by decide +kernel
/-- V208. -/
theorem test_shift_rows :
    (after (.shiftRows 32) counting).stateBytes 32 =
      [0x00, 0x05, 0x0E, 0x13, 0x04, 0x09, 0x12, 0x17, 0x08, 0x0D, 0x16, 0x1B, 0x0C, 0x11, 0x1A, 0x1F, 0x10, 0x15, 0x1E, 0x03,
        0x14, 0x19, 0x02, 0x07, 0x18, 0x1D, 0x06, 0x0B, 0x1C, 0x01, 0x0A, 0x0F] := by decide +kernel
/-- V226. -/
theorem test_shift_rows_bad_size :
    (after (.shiftRows 17) counting).errcode = .invalidBlockSize := by decide
/-- V210. -/
theorem test_inv_shift_rows :
    (after (.invShiftRows 24) counting).stateBytes 24 =
      [0x00, 0x15, 0x12, 0x0F, 0x04, 0x01, 0x16, 0x13, 0x08, 0x05, 0x02, 0x17, 0x0C, 0x09, 0x06, 0x03, 0x10, 0x0D, 0x0A, 0x07,
        0x14, 0x11, 0x0E, 0x0B] := by decide +kernel
/-- V218. -/
theorem test_mix_columns :
    (after (.mixColumns 16) (withBytes idle0 stateBase
      [0xDB, 0x13, 0x53, 0x45, 0xF2, 0x0A, 0x22, 0x5C, 1, 1, 1, 1, 0xC6, 0xC6, 0xC6, 0xC6])).stateBytes 16 =
      [0x8E, 0x4D, 0xA1, 0xBC, 0x9F, 0xDC, 0x58, 0x9D, 1, 1, 1, 1, 0xC6, 0xC6, 0xC6, 0xC6] := by decide +kernel
/-- V219. -/
theorem test_inv_mix_columns :
    (after (.invMixColumns 16) (withBytes idle0 stateBase
      [0x8E, 0x4D, 0xA1, 0xBC, 0x9F, 0xDC, 0x58, 0x9D, 1, 1, 1, 1, 0xC6, 0xC6, 0xC6, 0xC6])).stateBytes 16 =
      [0xDB, 0x13, 0x53, 0x45, 0xF2, 0x0A, 0x22, 0x5C, 1, 1, 1, 1, 0xC6, 0xC6, 0xC6, 0xC6] := by decide +kernel
/-- V222: round key 1 of the zero key (V31) into a zero STATE. -/
theorem test_add_round_key :
    (after (.addRoundKey 16 1) keyed).stateBytes 4 = [0x62, 0x63, 0x63, 0x63] := by decide +kernel
/-- V223. -/
theorem test_add_round_key_past_nr : (after (.addRoundKey 16 11) keyed).errcode = .noSchedule := by decide +kernel
/-- P4: round 1 of the FIPS-197 C.1 block, round key 1 = D6AA74FDD2AF72FADAA678F1D6AB76FE by 41 R252. -/
theorem test_enc_round :
    encRound (roundKeyOf (expandLoop 16 4 1 (upFrom 0 16)) 16)
      [0x00, 0x10, 0x20, 0x30, 0x40, 0x50, 0x60, 0x70, 0x80, 0x90, 0xA0, 0xB0, 0xC0, 0xD0, 0xE0, 0xF0] 1 =
      [0x89, 0xD8, 0x10, 0xE8, 0x85, 0x5A, 0xCE, 0x68, 0x2D, 0x18, 0x43, 0xD8, 0xCB, 0x12, 0x8F, 0xE4] := by decide +kernel
/-- P4, undone. -/
theorem test_dec_round :
    decRound (roundKeyOf (expandLoop 16 4 1 (upFrom 0 16)) 16)
      [0x89, 0xD8, 0x10, 0xE8, 0x85, 0x5A, 0xCE, 0x68, 0x2D, 0x18, 0x43, 0xD8, 0xCB, 0x12, 0x8F, 0xE4] 1 =
      [0x00, 0x10, 0x20, 0x30, 0x40, 0x50, 0x60, 0x70, 0x80, 0x90, 0xA0, 0xB0, 0xC0, 0xD0, 0xE0, 0xF0] := by decide +kernel
/-- S1, the source's first known-answer vector. -/
theorem test_encrypt_block_kat :
    encryptBlock (roundKeyOf (expand (0x80 :: List.replicate 15 0) 16) 16) 10 (List.replicate 16 0) =
      [0x0E, 0xDD, 0x33, 0xD3, 0xC6, 0x21, 0xE5, 0x46, 0x45, 0x5B, 0xD8, 0xBA, 0x14, 0x18, 0xBE, 0xC8] := by decide +kernel
/-- V49: the schedule is for another block size. -/
theorem test_enc_block_no_schedule : (after (.encBlock 24) keyed).errcode = .noSchedule := by decide +kernel
theorem test_dec_block_no_schedule : (after (.decBlock 16) idle0).errcode = .noSchedule := by decide
/-- V61: an empty input with Zero gives an empty result and no error. -/
theorem test_encrypt_empty :
    let t := after (.encrypt 16) (withCipher idle0 .ecb .zero)
    t.statusWord = 0x00000032 ∧ t.outLen = 0 := by decide +kernel
/-- V70: CBC without an IV. -/
theorem test_encrypt_no_iv :
    (after (.encrypt 16) (withCipher (withInput idle0 [0, 0, 0, 0]) .cbc .pkcs7)).statusWord = 0x00000016 := by decide +kernel
/-- V72 and V73: an unaligned and an empty input with PKCS7. -/
theorem test_decrypt_errors :
    (after (.decrypt 16) (withCipher (withInput idle0 (List.replicate 15 0)) .ecb .pkcs7)).errcode = .unalignedInput ∧
    (after (.decrypt 16) (withCipher idle0 .ecb .pkcs7)).errcode = .invalidPadding := by decide +kernel
/-- V74. -/
theorem test_decrypt_empty : (after (.decrypt 16) (withCipher idle0 .ecb .zero)).statusWord = 0x00000032 := by decide +kernel
/-- V98: ANSIX923. -/
theorem test_pad_ansix923 :
    let t := after (.pad .ansix923 16) (withInput idle0 (upFrom 0 5))
    t.outLen = 16 ∧ t.mem.readBytes outBase 16 = upFrom 0 5 ++ List.replicate 10 0 ++ [0x0B] := by decide +kernel
/-- V99: ISO10126 with the port giving A5. -/
theorem test_pad_iso10126 :
    padBytes (upFrom 0 5) 16 (fun _ => 0xA5) .iso10126 = upFrom 0 5 ++ List.replicate 10 0xA5 ++ [0x0B] := by decide
/-- V101: Zero strips at most 16 of the 20 trailing zeros. -/
theorem test_unpad_zero :
    (after (.unpad .zero 16) (withInput idle0 ([1, 2] ++ List.replicate 20 0))).outLen = 6 := by decide +kernel
/-- V107, V108 and V112: count above the length, count 0, count above BS. -/
theorem test_unpad_counted :
    (after (.unpad .pkcs7 16) (withInput idle0 (upFrom 0 15 ++ [0x11]))).errcode = .invalidPadding ∧
    (after (.unpad .pkcs7 16) (withInput idle0 (upFrom 0 15 ++ [0x00]))).outLen = 16 ∧
    (after (.unpad .pkcs7 16) (withInput idle0 (List.replicate 32 0x20))).errcode = .ok := by decide +kernel
/-- V144 and V143: InvalidIVLength before UnalignedInput, LengthOverflow before both (IN_CAP = 32). -/
theorem test_priority :
    let s := { withCipher idle0 .cbc .none with inCap := 32, ivLen := 3, inLen := 17 }
    (after (.encrypt 16) s).errcode = .invalidIVLength ∧
    (after (.encrypt 16) { s with inLen := 40 }).errcode = .lengthOverflow := by decide

/-! ## The bus -/

/-- V9, V12, V13 and V15: ROM words. -/
theorem test_rom_reads :
    [(0x1000, 4), (0x1202, 2), (0x17FF, 1), (0x181C, 4)].map (fun p => (hostRead idle0 p.1 p.2).resp) =
      [some (.data 0x7B777C63), some (.data 0x604), some (.data 0x8D), some (.data 0x0091C5EF)] := by decide
/-- V17, V165 and V166: bus errors. -/
theorem test_bus_errors :
    [(0x1001, 4), (0x004, 2), (0x006, 4)].map (fun p => (hostRead idle0 p.1 p.2).resp) =
      [some .busError, some .busError, some .busError] := by decide
/-- V168 and V169: a 2-byte write to IV; KEY reads 0. -/
theorem test_buffer_writes :
    (hostRead (hostWrite idle0 0x124 2 0xFFFF5514) 0x124 2).resp = some (.data 0x5514) ∧
    (hostRead (hostWrite idle0 0x100 4 0xDDCCBBAA) 0x100 4).resp = some (.data 0) ∧
    (hostWrite idle0 0x100 4 0xDDCCBBAA).keyByte 1 = 0xBB := by decide
/-- V171 and V173: IV_LEN keeps 8 bits, CTRL one. -/
theorem test_register_writes :
    (hostRead (hostWrite idle0 0x01C 4 0x12345678) 0x01C 4).resp = some (.data 0x78) ∧
    (hostRead (hostWrite idle0 0x010 4 0xFFFFFFFF) 0x010 4).resp = some (.data 1) := by decide
/-- V180, V182 and V183: the busy window. -/
theorem test_busy_window :
    (hostWrite (busyWith idle0 0 5) 0x140 4 0x11111111).statusWord = 9 ∧
    (hostWrite { busyWith idle0 0 5 with ovr := true } 0x004 4 8).statusWord = 1 ∧
    (hostWrite (busyWith idle0 0 5) 0x141 4 0).ovr = false := by decide
/-- V174: NOP written to CMD is issued and, its LATENCY over, sets DONE; ISSUE is a CMD write (R163). -/
theorem test_issue_and_complete :
    (hostEvent idle0 (issueCmd .nop)).busy = true ∧
    (match step ((hostEvent { idle0 with ie := true } (issueCmd .nop)).withFetchWord 32 0) with
      | .next t => decide (t.statusWord = 2 ∧ t.irq = true)
      | .fault _ => false
      | .refused _ => false) = true := by decide
/-- An access while rst = 1 is no host step (70 R550). -/
theorem test_access_in_reset :
    (match step { idle0 with rst := true, host := [r32 0x004] } with
      | .next _ => false
      | .fault r => decide (r = .accessInReset)
      | .refused _ => false) = true := by decide


/-! ## Witnesses: for each statement with hypotheses, values that meet them all -/

/-- `keyed` with a mode, a padding and input data. -/
def keyedWith (md : Mode) (p : Scheme) (b : Bytes) : State := { withInput keyed b with cfgMode := md, cfgPad := p }

theorem length_keyedSchedule : (expand (List.replicate 16 0) 16).length = 176 := by decide +kernel

theorem keyedWith_mem (md : Mode) (p : Scheme) (b : Bytes) :
    (keyedWith md p b).mem = (Memory.zeroed.writeBytes rkBase (expand (List.replicate 16 0) 16)).writeBytes inBase b := by
  simp only [keyedWith, withInput, keyed, withCipher, withBytes, idle0, State.setMem]

theorem keyedWith_inCap (md : Mode) (p : Scheme) (b : Bytes) : (keyedWith md p b).inCap = 4096 := by
  simp only [keyedWith, withInput, keyed, withCipher, withBytes, idle0, State.setMem, State.reset, Config.inCapDefault]

theorem keyedWith_memOk (md : Mode) (p : Scheme) {b : Bytes} (h : b.length ≤ 4096) : (keyedWith md p b).MemOk := by
  refine ⟨?_, ?_, ?_, ?_⟩
  · rw [keyedWith_mem]
    exact Memory.wf_writeBytes (Memory.wf_writeBytes Memory.wf_zeroed _ _) _ _
  · rw [keyedWith_mem, keyedWith_inCap]
    refine Memory.inBuffers_writeBytes (Memory.inBuffers_writeBytes (by decide) ?_) ?_
    · intro k hk
      rw [length_keyedSchedule] at hk
      simp [isBufferOffset, keyBase, chainBase, blockCap, rkBase, rkCap]; omega
    · intro k hk
      simp [isBufferOffset, inBase]; omega
  · rw [keyedWith_inCap]; decide
  · rw [keyedWith_inCap]; decide

theorem keyedWith_scheduleOk (md : Mode) (p : Scheme) (b : Bytes) : (keyedWith md p b).ScheduleOk := by
  have h1 : (keyedWith md p b).rkInfoWord = 0x0A10 := by
    simp only [State.rkInfoWord, keyedWith, withInput, withBytes, State.setMem, keyed]; decide
  have h2 : (keyedWith md p b).rkValid = true := rfl
  have h3 : (keyedWith md p b).rkBs = 16 := rfl
  have h4 : (keyedWith md p b).cfgKlen = 16 := rfl
  have h5 : (keyedWith md p b).cipherKey = List.replicate 16 0 := by
    have hc : (keyedWith md p b).ckey = Vector.replicate 32 0 := by
      simp only [keyedWith, withInput, withBytes, State.setMem, keyed, withCipher, idle0]
    have hb : ∀ i, (keyedWith md p b).ckeyByte i = (Vector.replicate 32 (0 : Byte))[i]?.getD 0 := fun i => by
      rw [State.ckeyByte, hc]
    rw [State.cipherKey, h4, List.map_congr_left fun i _ => hb i]
    decide
  refine { info := by simp [h1, h2], slot := fun _ => rfl, size := fun _ => by rw [h3]; decide, rounds := ?_, bytes := ?_ }
  · intro _
    rw [h3, h4]; rfl
  · intro _
    have h6 : scheduleLength (16 : Byte).toNat (16 : Byte).toNat = (expand (List.replicate 16 0) 16).length := by
      rw [length_keyedSchedule]; rfl
    rw [h3, h4, h5, h6, keyedWith_mem]
    refine Eq.trans ?_ (Memory.readBytes_writeBytes Memory.zeroed rkBase _)
    refine Memory.readBytes_congr fun k hk => Memory.read_writeBytes_outside _ (.inl ?_)
    rw [length_keyedSchedule] at hk
    simp [rkBase, inBase]; omega

theorem keyedWith_flowOk (md : Mode) (p : Scheme) (b : Bytes) : (keyedWith md p b).FlowOk where
  busy := by intro h; cases h
  failed := by intro h; cases h
  result := Nat.zero_le _
  held := by intro h; cases h

theorem keyedWith_inv (md : Mode) (p : Scheme) {b : Bytes} (h : b.length ≤ 4096) : (keyedWith md p b).Inv where
  mem := keyedWith_memOk md p h
  slot := { klen := fun _ => .inl rfl, empty := by intro h; cases h }
  schedule := keyedWith_scheduleOk md p b
  flow := keyedWith_flowOk md p b

theorem witness_DecodeOfEncodeIsIdentity : (Instr.addRoundKey 255 15).WellFormed ∧ (Instr.unpad .iso10126 255).WellFormed := by
  decide
theorem witness_EncodeOfDecodeIsIdentity :
    decode 0x0004FF41 = .ok (.unpad .iso10126 255) ∧ decode 0x00FF0901 = .ok (.construct .cbc .iso10126 255) := by decide
theorem witness_DecodeLegalExactlyByFormat : decode 0x000FFF26 = .ok (.addRoundKey 255 15) := by decide
theorem witness_StepRunsDecodedCommand :
    (busyWith idle0 0x1020 0).rst = false ∧ (busyWith idle0 0x1020 0).seq = .executing 0x1020 0 ∧
    decode 0x1020 = .ok (.subBytes 16) := by decide
theorem witness_FetchedWordRunsNext : decodeTableWord 32 0x1020 = some (.subBytes 16) := by decide
theorem witness_StepTakesNextHostEvent :
    (idle0.rst = false ∧ idle0.seq = .idle ∧ idle0.host = []) ∧
    (let s := { idle0 with host := [r32 0x004] }; s.rst = false ∧ s.seq = .idle ∧ s.host = [r32 0x004]) ∧
    (let s := busyWith idle0 0 1; s.rst = false ∧ s.seq = .executing 0 1 ∧ s.host = []) ∧
    let s := { busyWith idle0 0 1 with host := [.rstRise] }
    s.rst = false ∧ s.seq = .executing 0 1 ∧ s.host = [.rstRise] := by decide
theorem witness_CmdWriteIssues :
    (let r := writeReq 0 4 0x1020; r.write = true ∧ r.off = 0 ∧ r.size = 4) ∧ idle0.busy = false ∧
    (busyWith idle0 0 0).busy = true := by decide
theorem witness_IssuedCommandCompletes :
    let s := { busyWith idle0 0x1020 3 with host := [r32 0x004, w8 0x140 1] }
    s.rst = false ∧ s.seq = .executing 0x1020 3 ∧ HostEvent.rstRise ∉ s.host := by decide
theorem witness_BusyWindow :
    (busyWith idle0 0 5).busy = true ∧
    ([writeReq 0x140 1 1, writeReq 0x008 4 1, writeReq 0x3FFFC 4 1].all fun r =>
      decide (Permitted r.off.toNat r.size ∧ r.write = true ∧ r.off ≠ 0x004 ∧ r.off ≠ 0x010)) = true ∧
    ([readReq 0x004 4, readReq 0x010 4, readReq 0x024 4, readReq 0x028 4].all fun r =>
      decide (Permitted r.off.toNat r.size ∧ r.write = false ∧ BusyReadable r.off.toNat)) = true ∧
    ([readReq 0x000 4, readReq 0x008 4, readReq 0x020 4, readReq 0x02C 4, readReq 0x100 1, readReq 0x3FFFE 2].all fun r =>
      decide (Permitted r.off.toNat r.size ∧ r.write = false ∧ ¬ BusyReadable r.off.toNat)) = true := by decide
theorem witness_OperandsHeldWhileBusy :
    let s := { busyWith idle0 0x1020 1 with host := [w8 0x140 1] }
    s.rst = false ∧ s.seq = .executing 0x1020 1 ∧ ∀ es, s.host ≠ .rstRise :: es := by
  refine ⟨rfl, rfl, fun es h => ?_⟩
  cases h
theorem witness_BusErrorChangesNothing :
    ([readReq 0x141 4, readReq 0x004 2, writeReq 0x1FF 2 0, readReq 0x140 3].all fun r =>
      decide (¬ ((r.size = 1 ∨ r.size = 2 ∨ r.size = 4) ∧ r.off.toNat % r.size = 0 ∧ (r.off.toNat < 0x100 → r.size = 4))))
      = true := by decide
theorem witness_ReadsHaveNoSideEffect : (readReq 0x140 1).write = false ∧ idle0.busy = false := by decide
theorem witness_WrittenBytesReadBack :
    idle0.busy = false ∧ idle0.inCap ≤ Config.inCapMax ∧
    (Permitted 0x120 4 ∧ 0x120 < 2 ^ 18 ∧ ReadWriteBuffer idle0.inCap 0x120 4) ∧
    (Permitted 0x15E 2 ∧ 0x15E < 2 ^ 18 ∧ ReadWriteBuffer idle0.inCap 0x15E 2) ∧
    (Permitted 0x10000 1 ∧ 0x10000 < 2 ^ 18 ∧ ReadWriteBuffer idle0.inCap 0x10000 1) ∧
    (Permitted 0x10FFC 4 ∧ 0x10FFC < 2 ^ 18 ∧ ReadWriteBuffer idle0.inCap 0x10FFC 4) := by
  unfold ReadWriteBuffer; decide
theorem witness_WrittenBytesAreStored :
    idle0.busy = false ∧
    ∀ r ∈ [writeReq 0x100 4 0xDDCCBBAA, writeReq 0x11F 1 1, writeReq 0x120 2 1, writeReq 0x15C 4 1, writeReq 0x10000 4 1,
      writeReq 0x10FFF 1 1],
      r.write = true ∧ Permitted r.off.toNat r.size ∧ WritableBuffer idle0.inCap r.off.toNat r.size := by
  unfold WritableBuffer; decide
theorem witness_HostWriteTouchesOnlyItsBytes :
    idle0.busy = false ∧ (writeReq 0x100 4 0).write = true ∧ 0x100 ≤ (writeReq 0x100 4 0).off.toNat := by decide
theorem witness_ReadOnlyIgnoresWrites :
    idle0.busy = false ∧ idle0.inCap ≤ Config.inCapMax ∧
    ([writeReq 0x008 4 1, writeReq 0x0FC 4 1, writeReq 0x160 1 1, writeReq 0x1000 2 1, writeReq 0xFFFC 4 1, writeReq 0x11000 1 1,
      writeReq 0x3FFFC 4 1].all fun r => decide (r.write = true ∧ Permitted r.off.toNat r.size ∧
        ((r.off.toNat < 0x100 ∧ r.off ≠ 0x000 ∧ r.off ≠ 0x004 ∧ r.off ≠ 0x010 ∧ r.off ≠ 0x014 ∧ r.off ≠ 0x01C) ∨
          (0x160 ≤ r.off.toNat ∧ r.off.toNat < 0x10000) ∨ 0x10000 + idle0.inCap ≤ r.off.toNat))) = true := by decide
theorem witness_UnreadableReadsZero :
    idle0.busy = false ∧
    ([readReq 0x000 4, readReq 0x02C 4, readReq 0x11F 1, readReq 0x180 4, readReq 0x1FF 1, readReq 0x3E0 4, readReq 0xFFF 1,
      readReq 0x1820 4, readReq 0x11000 4, readReq 0x21020 4].all fun r =>
      decide (r.write = false ∧ Permitted r.off.toNat r.size ∧
        (r.off = 0x000 ∨ (0x02C ≤ r.off.toNat ∧ r.off.toNat < 0x120) ∨ (0x180 ≤ r.off.toNat ∧ r.off.toNat < 0x200) ∨
          (0x3E0 ≤ r.off.toNat ∧ r.off.toNat < 0x1000) ∨ (0x1820 ≤ r.off.toNat ∧ r.off.toNat < 0x10000) ∨
          (0x10000 + idle0.inCap ≤ r.off.toNat ∧ r.off.toNat < 0x20000) ∨
          0x20000 + (idle0.inCap + 32) ≤ r.off.toNat))) = true := by decide
theorem witness_BufferReadLanes :
    idle0.busy = false ∧ idle0.inCap ≤ Config.inCapMax ∧
    ∀ r ∈ [readReq 0x120 4, readReq 0x17F 1, readReq 0x200 2, readReq 0x3DC 4, readReq 0x10000 4, readReq 0x10FFF 1,
      readReq 0x20000 2, readReq 0x2101F 1],
      r.write = false ∧ Permitted r.off.toNat r.size ∧ ReadableBuffer idle0.inCap r.off.toNat r.size := by
  unfold ReadableBuffer; decide
theorem witness_RegisterReads : idle0.busy = false := by decide
/-- The CTRL clause holds of busy states too. -/
theorem witness_WritableRegisters : idle0.busy = false ∧ (busyWith idle0 0 5).busy = true := by decide
theorem witness_RomReadsTables :
    idle0.busy = false ∧ ((1 : Nat) ≤ 1 ∧ 1 ≤ 30) ∧ ((1 : Nat) ≤ 30 ∧ 30 ≤ 30) ∧
    ∀ r ∈ [readReq 0x1000 4, readReq 0x1202 2, readReq 0x17FF 1, readReq 0x181C 4, readReq 0x181F 1],
      r.write = false ∧ Permitted r.off.toNat r.size ∧ romBase ≤ r.off.toNat ∧ r.off.toNat + r.size ≤ romBase + 2080 := by
  decide
theorem witness_KeyIsNotReadable :
    ∀ x, x < keyBase ∨ keyBase + blockCap ≤ x → (idle0.mem.write 0x11F 0x80).read x = idle0.mem.read x := by
  intro x hx
  rw [Memory.read_write, if_neg]
  simp only [keyBase, blockCap] at hx
  omega
theorem witness_InterruptLine :
    exec .nop idle0 = .next (idle0.complete .ok) ∧ BitVec.getLsbD (2 : Word) 1 = true ∧ BitVec.getLsbD (2 : Word) 0 = false ∧
    idle0.busy = false := ⟨rfl, by decide⟩
theorem witness_ResetEvent :
    (let s := { idle0 with host := [.rstRise] }; s.rst = false ∧ s.host = [.rstRise] ∧ s.seq = .idle) ∧
    (let s := { busyWith idle0 0x1020 1 with host := [.rstRise] };
      s.rst = false ∧ s.host = [.rstRise] ∧ s.seq = .executing 0x1020 1) ∧
    (let s := { idle0 with rst := true }; s.rst = true ∧ s.host = []) ∧
    (∀ e ∈ [HostEvent.rstFall, .rstRise, r32 0x004],
      { idle0 with rst := true, host := [e] }.rst = true ∧ { idle0 with rst := true, host := [e] }.host = [e]) := by decide
theorem witness_SboxIsAffineOfInverse : (0x53 : Byte) ≠ 0 ∧ gfMul 0x53 0xCA = 1 := by decide
theorem witness_TablesAreFieldValues : (1 : Nat) ≤ 29 ∧ 29 < 30 := by decide
theorem witness_ScheduleLengths :
    LegalSize (List.replicate 24 (0 : Byte)).length ∧ LegalSize 16 ∧ LegalSize 24 ∧ LegalSize 32 := by decide
/-- One offset for each of the three clauses, the first and the last of a schedule among them. -/
theorem witness_ExpandRecurrence :
    LegalSize (List.replicate 16 (0 : Byte)).length ∧ LegalSize (List.replicate 32 (0 : Byte)).length ∧ LegalSize 16 ∧
    (16 % 4 = 0 ∧ 16 ≤ 16 ∧ 16 < (expand (List.replicate 16 0) 16).length ∧ 16 % 16 = 0) ∧
    (172 % 4 = 0 ∧ 16 ≤ 172 ∧ 172 < (expand (List.replicate 16 0) 16).length ∧ 172 % 16 ≠ 0) ∧
    (48 % 4 = 0 ∧ 32 ≤ 48 ∧ 48 < (expand (List.replicate 32 0) 16).length ∧ 48 % 32 = 16) := by decide +kernel
theorem witness_KeyExpandResult : keyed.cfgValid = true ∧ LegalSize keyed.cfgKlen.toNat ∧ LegalSize 24 := by decide
theorem witness_SubstitutionResults : LegalSize 16 ∧ LegalSize 24 ∧ LegalSize 32 := by decide
theorem witness_ShiftRowsResults : LegalSize 32 ∧ 3 < 4 ∧ 7 < 32 / 4 := by decide
theorem witness_MixColumnsResults : LegalSize 24 ∧ 5 < 24 / 4 := by decide
theorem witness_AddRoundKeyResult :
    LegalSize 16 ∧ keyed.rkValid = true ∧ keyed.rkBs.toNat = 16 ∧ 10 ≤ keyed.rkNr.toNat := by decide
theorem witness_BlockCommandResults :
    LegalSize 16 ∧ keyed.rkValid = true ∧ keyed.rkBs.toNat = 16 ∧ 1 ≤ keyed.rkNr.toNat := by decide
theorem witness_RoundStepsInverse : LegalSize (List.replicate 24 (0x53 : Byte)).length := by decide
theorem witness_BlockRoundTrip : LegalSize (List.replicate 32 (1 : Byte)).length ∧ LegalSize (List.replicate 24 (2 : Byte)).length := by
  decide
theorem witness_EncThenDecBlockRestoresState : LegalSize 16 ∧ keyed.rkValid = true ∧ keyed.rkBs.toNat = 16 := by decide
/-- Two blocks, so that the first and a later block are both there. -/
theorem witness_ChainingBlocks :
    LegalSize 16 ∧ (List.replicate 32 (7 : Byte)).length % 16 = 0 ∧ (List.replicate 16 (0 : Byte)).length = 16 ∧
    (∀ r, r ≤ 10 → (roundKeyOf (List.replicate 176 0) 16 r).length = 16) ∧
    0 < (List.replicate 32 (7 : Byte)).length / 16 ∧ 1 < (List.replicate 32 (7 : Byte)).length / 16 := by
  refine ⟨by decide, by decide, by decide, fun r hr => length_roundKeyOf ?_, by decide, by decide⟩
  simp only [List.length_replicate]; omega
theorem witness_ChainRoundTrip :
    LegalSize (List.replicate 16 (0 : Byte)).length ∧ LegalSize 24 ∧ (List.replicate 48 (7 : Byte)).length % 24 = 0 ∧
    (List.replicate 24 (0 : Byte)).length = 24 := by decide
/-- Blocks 0 and 1 of the first plaintext are equal; the second plaintext differs from it in block 1 alone. -/
theorem witness_EcbDeterminismAndCbcDiffusion :
    let p := List.replicate 32 (7 : Byte)
    let q := List.replicate 16 (7 : Byte) ++ List.replicate 16 8
    (LegalSize (List.replicate 16 (0 : Byte)).length ∧ LegalSize 16 ∧ p.length % 16 = 0 ∧ q.length = p.length ∧
      (List.replicate 16 (0 : Byte)).length = 16) ∧
    (0 < p.length / 16 ∧ 1 < p.length / 16 ∧ blockOf p 16 0 = blockOf p 16 1) ∧
    (∀ i, i < 1 → blockOf p 16 i = blockOf q 16 i) ∧ blockOf p 16 1 ≠ blockOf q 16 1 := by decide +kernel
/-- Every scheme: a full IN for the padded ones, an aligned input for None. -/
theorem witness_PadResult :
    (∀ p ∈ [Scheme.zero, .none, .pkcs7, .ansix923, .iso10126],
      LegalSize 16 ∧ (withInput idle0 (List.replicate 16 1)).inCap ≤ Config.inCapMax ∧
      (withInput idle0 (List.replicate 16 1)).inLen.toNat ≤ (withInput idle0 (List.replicate 16 1)).inCap ∧
      (p = .none → (withInput idle0 (List.replicate 16 1)).inLen.toNat % 16 = 0)) ∧
    (let s := { idle0 with inLen := 4096 }; LegalSize 24 ∧ s.inCap ≤ Config.inCapMax ∧ s.inLen.toNat ≤ s.inCap) := by
  decide +kernel
/-- The failing clause with an empty and a too short input, the other with a count of 16, of 0 and for the uncounted schemes. -/
theorem witness_UnpadResult :
    (∀ b ∈ [[], upFrom 0 15 ++ [0x11]],
      let s := withInput idle0 b;
      s.inLen.toNat ≤ s.inCap ∧ (s.inLen.toNat = 0 ∨ s.inLen.toNat < (s.inByte (s.inLen.toNat - 1)).toNat)) ∧
    (∀ b ∈ [List.replicate 16 0x10, List.replicate 16 0],
      let s := withInput idle0 b;
      LegalSize 16 ∧ s.inCap ≤ Config.inCapMax ∧ s.inLen.toNat ≤ s.inCap ∧ s.inLen.toNat % 16 = 0 ∧
      ¬ (s.inLen.toNat = 0 ∨ s.inLen.toNat < (s.inByte (s.inLen.toNat - 1)).toNat)) ∧
    (let p := Scheme.zero; ¬ (p = .pkcs7 ∨ p = .ansix923 ∨ p = .iso10126)) ∧
    (let p := Scheme.none; ¬ (p = .pkcs7 ∨ p = .ansix923 ∨ p = .iso10126)) := by decide +kernel
theorem witness_PaddingRoundTrip :
    LegalSize 16 ∧ ([1, 2, 3] : Bytes).getLast? ≠ some 0 ∧ ([] : Bytes).getLast? ≠ some 0 ∧
    (List.replicate 32 (0 : Byte)).length % 16 = 0 := by decide
theorem witness_EncryptResult :
    let s := keyedWith .cbc .none (List.replicate 32 7)
    s.Inv ∧ s.cfgValid = true ∧ LegalSize 16 ∧ s.inLen.toNat ≤ s.inCap ∧ (s.cfgMode = .cbc → s.ivLen.toNat = 16) ∧
    (s.cfgPad = .none → s.inLen.toNat % 16 = 0) :=
  ⟨keyedWith_inv _ _ (by decide), by decide +kernel⟩
theorem witness_DecryptResult :
    let s := keyedWith .cbc .none (List.replicate 32 7)
    let r := chainDec s.inData (expand s.cipherKey 16) 16 (roundCount s.cfgKlen.toNat 16) s.cfgMode (s.ivBytes 16)
    s.Inv ∧ (s.cfgValid = true ∧ LegalSize 16 ∧ s.inLen.toNat ≤ s.inCap ∧ (s.cfgMode = .cbc → s.ivLen.toNat = 16) ∧
      s.inLen.toNat % 16 = 0) ∧ unpadBytes r.1 16 s.cfgPad = some r.1 :=
  ⟨keyedWith_inv _ _ (by decide), by decide +kernel, rfl⟩
/-- The message is ENCRYPTed, and what it gave is put back into IN. -/
def encrypted : State := after (.encrypt 16) (keyedWith .cbc .pkcs7 [1, 2, 3])
def putBackOf (s : State) : State := { s with mem := s.mem.writeBytes inBase s.outData, inLen := s.outLen }
def putBack : State := putBackOf encrypted
theorem putBackOf_inData (s : State) : (putBackOf s).inData = s.outData := by
  have h : s.outData.length = s.outLen.toNat := Memory.length_readBytes _ _ _
  simp only [State.inData, putBackOf]
  rw [← h]
  exact Memory.readBytes_writeBytes _ _ _
theorem putBackOf_iv (s : State) {k : Nat} (hk : k < 16) : (putBackOf s).mem.read (ivBase + k) = s.mem.read (ivBase + k) := by
  refine Memory.read_writeBytes_outside _ (.inl ?_)
  simp only [ivBase, inBase]; omega
theorem encrypted_eq : exec (.encrypt 16) (keyedWith .cbc .pkcs7 [1, 2, 3]) = .next encrypted := by
  have h : ¬ ((keyedWith .cbc .pkcs7 [1, 2, 3]).cfgValid = false) ∧ ¬ ¬ LegalSize 16 ∧
      ¬ (keyedWith .cbc .pkcs7 [1, 2, 3]).InOverflow ∧ ¬ (keyedWith .cbc .pkcs7 [1, 2, 3]).IvMismatch 16 ∧
      ¬ ((keyedWith .cbc .pkcs7 [1, 2, 3]).cfgPad = .none ∧ (keyedWith .cbc .pkcs7 [1, 2, 3]).Unaligned 16) := by
    decide +kernel
  obtain ⟨h1, h2, h3, h4, h5⟩ := h
  simp only [encrypted, after, exec, execEncrypt, if_neg h1, if_neg h2, if_neg h3, if_neg h4, if_neg h5, finish]
theorem witness_EncryptThenDecryptRestoresMessage :
    let s := keyedWith .cbc .pkcs7 [1, 2, 3]
    s.Inv ∧ s.cfgValid = true ∧ LegalSize 16 ∧ exec (.encrypt 16) s = .next encrypted ∧
    (encrypted.errcode = .ok ∧ putBack.inCap = encrypted.inCap ∧ putBack.inLen.toNat ≤ putBack.inCap) ∧
    (s.cfgPad = .zero → s.inData.getLast? ≠ some 0) ∧ SlotSame encrypted putBack ∧ putBack.inLen = encrypted.outLen ∧
    putBack.inData = encrypted.outData ∧ putBack.ivLen = encrypted.ivLen ∧
    ∀ k, k < 16 → putBack.mem.read (ivBase + k) = encrypted.mem.read (ivBase + k) := by
  refine ⟨keyedWith_inv _ _ (by decide), rfl, .inl rfl, encrypted_eq, by decide +kernel, (by intro h; cases h),
    ⟨rfl, rfl, rfl, rfl, rfl⟩, rfl, putBackOf_inData _, rfl, fun _ hk => putBackOf_iv _ hk⟩
/-- `s` with another STATE, OUT_LEN and schedule flag: it agrees with `s` on the operands. -/
def otherwise (s : State) : State := { s with outLen := 7, rkValid := false, mem := s.mem.write stateBase 1 }
theorem otherwise_operands (s : State) :
    ((otherwise s).cfgValid = s.cfgValid ∧ (otherwise s).cfgMode = s.cfgMode ∧ (otherwise s).cfgPad = s.cfgPad ∧
      (otherwise s).cfgKlen = s.cfgKlen ∧ (∀ k, k < s.cfgKlen.toNat → (otherwise s).ckeyByte k = s.ckeyByte k) ∧
      (otherwise s).inCap = s.inCap ∧ (otherwise s).inLen = s.inLen ∧ (otherwise s).rngDraws = s.rngDraws) ∧
    (∀ k, k < s.inLen.toNat → (otherwise s).inByte k = s.inByte k) ∧
    (s.cfgMode = .cbc → (otherwise s).ivLen = s.ivLen ∧
      ∀ k, k < 16 → (otherwise s).mem.read (ivBase + k) = s.mem.read (ivBase + k)) := by
  refine ⟨⟨rfl, rfl, rfl, rfl, fun _ _ => rfl, rfl, rfl, rfl⟩, fun k _ => ?_, fun _ => ⟨rfl, fun k hk => ?_⟩⟩
  · simp only [State.inByte, otherwise]
    rw [Memory.read_write, if_neg]
    simp only [inBase, stateBase]; omega
  · simp only [otherwise]
    rw [Memory.read_write, if_neg]
    simp only [ivBase, stateBase]; omega
/-- Three bytes are no whole block (43 R362). -/
theorem decrypt_unaligned :
    exec (.decrypt 16) (keyedWith .cbc .pkcs7 [1, 2, 3]) = .next ((keyedWith .cbc .pkcs7 [1, 2, 3]).failed .unalignedInput) := by
  have h : ¬ ((keyedWith .cbc .pkcs7 [1, 2, 3]).cfgValid = false) ∧ ¬ ¬ LegalSize 16 ∧
      ¬ (keyedWith .cbc .pkcs7 [1, 2, 3]).InOverflow ∧ ¬ (keyedWith .cbc .pkcs7 [1, 2, 3]).IvMismatch 16 ∧
      (keyedWith .cbc .pkcs7 [1, 2, 3]).Unaligned 16 := by decide +kernel
  obtain ⟨h1, h2, h3, h4, h5⟩ := h
  simp only [exec, execDecrypt, if_neg h1, if_neg h2, if_neg h3, if_neg h4, if_pos h5, raise_eq]
/-- With `otherwise_operands` at this state. -/
theorem witness_CipherDependsOnlyOnOperands :
    let s := keyedWith .cbc .pkcs7 [1, 2, 3]
    (encrypted.errcode = .ok ∧ LegalSize s.cfgKlen.toNat ∧ s.cfgMode = .cbc) ∧
    exec (.encrypt 16) s = .next encrypted ∧ (∃ t, exec (.encrypt 16) (otherwise s) = .next t) ∧
    exec (.decrypt 16) s = .next (s.failed .unalignedInput) ∧ (∃ t, exec (.decrypt 16) (otherwise s) = .next t) := by
  have h : ¬ ((otherwise (keyedWith .cbc .pkcs7 [1, 2, 3])).cfgValid = false) ∧ ¬ ¬ LegalSize 16 ∧
      ¬ (otherwise (keyedWith .cbc .pkcs7 [1, 2, 3])).InOverflow ∧ ¬ (otherwise (keyedWith .cbc .pkcs7 [1, 2, 3])).IvMismatch 16 ∧
      ¬ ((otherwise (keyedWith .cbc .pkcs7 [1, 2, 3])).cfgPad = .none ∧
        (otherwise (keyedWith .cbc .pkcs7 [1, 2, 3])).Unaligned 16) ∧
      (otherwise (keyedWith .cbc .pkcs7 [1, 2, 3])).Unaligned 16 := by decide +kernel
  obtain ⟨h1, h2, h3, h4, h5, h6⟩ := h
  refine ⟨by decide +kernel, encrypted_eq, ?_, decrypt_unaligned, ?_⟩
  · simp only [exec, execEncrypt, if_neg h1, if_neg h2, if_neg h3, if_neg h4, if_neg h5, finish]
    exact ⟨_, rfl⟩
  · simp only [exec, execDecrypt, if_neg h1, if_neg h2, if_neg h3, if_neg h4, if_pos h6, raise_eq]
    exact ⟨_, rfl⟩
theorem witness_ConstructResults : LegalSize 16 ∧ LegalSize 24 ∧ LegalSize 32 ∧ ¬ LegalSize 0 ∧ ¬ LegalSize 17 ∧ ¬ LegalSize 255 := by
  decide
/-- A legal word, an illegal one, and a command that fails. -/
theorem witness_ErrorPriority :
    (let s := busyWith idle0 0x1020 0; s.rst = false ∧ s.seq = .executing 0x1020 0 ∧ decode 0x1020 = .ok (.subBytes 16)) ∧
    (let s := busyWith idle0 0x03 0; s.rst = false ∧ s.seq = .executing 0x03 0 ∧ decode 0x03 = .error .unassignedOpcode) ∧
    let s := busyWith idle0 0x1010 0
    s.rst = false ∧ s.seq = .executing 0x1010 0 ∧ decode 0x1010 = .ok (.keyExpand 16) ∧
      firstError (checksOf s (.keyExpand 16)) = .invalidKeySize := by decide
/-- A failing command, an illegal word and a failing CONSTRUCT. -/
theorem witness_FailureWritesNothingElse :
    (let s := busyWith idle0 0x1010 0;
      s.rst = false ∧ step s = .next (s.failed .invalidKeySize) ∧ (s.failed .invalidKeySize).errcode ≠ .ok) ∧
    (let s := busyWith idle0 0x03 0;
      s.rst = false ∧ step s = .next (s.failed .illegalCommand) ∧ (s.failed .illegalCommand).errcode ≠ .ok) ∧
    let s := busyWith idle0 0x00110001 0
    s.rst = false ∧ decode 0x00110001 = .ok (.construct .ecb .zero 17) ∧
      step s = .next (s.clearSlot.clearSchedule.failed .invalidKeySize) ∧
      (s.clearSlot.clearSchedule.failed .invalidKeySize).errcode ≠ .ok := by
  refine ⟨⟨rfl, rfl, by decide⟩, ⟨rfl, rfl, by decide⟩, rfl, by decide, rfl, by decide⟩
theorem witness_WriteMatrix :
    let s := keyedWith .cbc .pkcs7 [1, 2, 3]
    s.Inv ∧ exec .nop s = .next (s.complete .ok) ∧ exec (.encrypt 16) s = .next encrypted ∧
    exec (.subBytes 16) s = .next ((s.storeState (subBytes (s.stateBytes 16))).complete .ok) ∧
    Instr.nop ≠ .zeroize ∧ Instr.encrypt 16 ≠ .zeroize ∧ Instr.subBytes 16 ≠ .zeroize ∧
    (Instr.subBytes 16).blockSize? = some 16 := by
  refine ⟨keyedWith_inv _ _ (by decide), rfl, encrypted_eq, rfl, by decide, by decide, by decide, rfl⟩
theorem witness_CkeyChangesOnlyByConstructZeroizeReset :
    let s := { busyWith idle0 0x02 0 with ckey := Vector.replicate 32 1 }
    step s = .next (s.zeroized.complete .ok) ∧ (s.zeroized.complete .ok).ckey ≠ s.ckey := ⟨rfl, by decide⟩
/-- An idle state with the invariant, given a word to execute. -/
theorem inv_executing {s : State} (h : s.Inv) (hd : s.done = false) (he : s.errcode = .ok) (hr : s.rst = false) (w : Word)
    (k : Nat) : State.Inv { s with seq := .executing w k } where
  mem := ⟨h.mem.wf, h.mem.inBuffers, h.mem.capMin, h.mem.capMax⟩
  slot := ⟨h.slot.klen, h.slot.empty⟩
  schedule := ⟨h.schedule.info, h.schedule.slot, h.schedule.size, h.schedule.rounds, h.schedule.bytes⟩
  flow := ⟨fun _ => ⟨hd, he⟩, h.flow.failed, h.flow.result, fun hr' => absurd (hr.symm.trans hr') (by decide)⟩
theorem witness_InvariantKept :
    let s := { keyedWith .cbc .pkcs7 [1, 2, 3] with seq := .executing 0x00 0 }
    s.Inv ∧ step s = .next (s.complete .ok) :=
  ⟨inv_executing (keyedWith_inv _ _ (by decide)) rfl rfl rfl 0x00 0, rfl⟩

end Sys2Proof.Machine.Tests
end

/-! PROOFS. The family 10_state: the lengths of what the commands write, the completions and their frames, the invariant, the
host port's registers. -/

namespace Sys2Proof.Machine

/-! ## Lengths of the schedule, the chained blocks and the padding (41 R251, 43 R350, R351, 44 R410, R411) -/

/-- RoundCountTable never passes 14 (41 R250). -/
theorem roundCount_le (ks bs : Nat) : roundCount ks bs ≤ 14 := by
  unfold roundCount; repeat' split
  all_goals omega

/-- Every schedule for a legal block size fits RK (41 R251, 10_state R67). -/
theorem scheduleLength_le {ks bs : Nat} (hbs : LegalSize bs) : scheduleLength ks bs ≤ rkCap := by
  have hbs' : bs ≤ 32 := by rcases hbs with rfl | rfl | rfl <;> decide
  calc scheduleLength ks bs ≤ 32 * 15 := Nat.mul_le_mul hbs' (by have := roundCount_le ks bs; omega)
    _ = rkCap := rfl

/-- The bytes of a schedule after the key are whole words (41 R262). -/
theorem scheduleLength_eq_key_add_words {ks bs : Nat} (hks : LegalSize ks) (hbs : LegalSize bs) :
    scheduleLength ks bs = ks + 4 * ((scheduleLength ks bs - ks) / 4) := by
  rcases hks with rfl | rfl | rfl <;> rcases hbs with rfl | rfl | rfl <;> decide

theorem length_scheduleWord (ks off step : Nat) (t : Bytes) : (scheduleWord ks off step t).length = t.length := by
  have hrot : (rotWord t).length = t.length := by cases t <;> simp [rotWord]
  have hxor (c : Byte) (u : Bytes) : (xorFirst c u).length = u.length := by cases u <;> rfl
  unfold scheduleWord
  split
  · rw [hxor, List.length_map, hrot]
  · split
    · rw [List.length_map]
    · rfl

/-- Each turn of the loop of R252 appends one word. -/
theorem length_expandLoop {ks : Nat} (hks : 4 ≤ ks) (n step : Nat) {w : Bytes} (hw : ks ≤ w.length) :
    (expandLoop ks n step w).length = w.length + 4 * n := by
  induction n generalizing step w with
  | zero => rfl
  | succ n ih =>
    have hword (t : Bytes) (ht : t.length = 4) :
        (w ++ xorBytes ((w.drop (w.length - ks)).take 4) t).length = w.length + 4 := by
      simp [length_xorBytes, ht]; omega
    rw [expandLoop, ih _ (by rw [hword _ (by simp [length_scheduleWord]; omega)]; omega),
      hword _ (by simp [length_scheduleWord]; omega)]
    omega

/-- The schedule has the length of R251. -/
theorem length_expand {key : Bytes} {bs : Nat} (hk : LegalSize key.length) (hbs : LegalSize bs) :
    (expand key bs).length = scheduleLength key.length bs := by
  have h4 : 4 ≤ key.length := by rcases hk with h | h | h <;> omega
  rw [expand, length_expandLoop h4 _ _ le_rfl, ← scheduleLength_eq_key_add_words hk hbs]

@[simp] theorem State.length_cipherKey (s : State) : s.cipherKey.length = s.cfgKlen.toNat := by simp [State.cipherKey]

@[simp] theorem State.length_inData (s : State) : s.inData.length = s.inLen.toNat := Memory.length_readBytes _ _ _

@[simp] theorem State.length_ivBytes (s : State) (bs : Nat) : (s.ivBytes bs).length = bs := Memory.length_readBytes _ _ _

@[simp] theorem State.length_stateBytes (s : State) (bs : Nat) : (s.stateBytes bs).length = bs :=
  Memory.length_readBytes _ _ _

@[simp] theorem State.length_roundKey (s : State) (bs r : Nat) : (s.roundKey bs r).length = bs :=
  Memory.length_readBytes _ _ _

/-- Every round key a cipher over `expand` reads has a block's length (41 R257). -/
theorem length_roundKeyOf_expand {key : Bytes} {bs r : Nat} (hk : LegalSize key.length) (hbs : LegalSize bs)
    (hr : r ≤ roundCount key.length bs) : (roundKeyOf (expand key bs) bs r).length = bs := by
  refine length_roundKeyOf ?_
  rw [length_expand hk hbs, scheduleLength, Nat.mul_comm bs]
  exact Nat.mul_le_mul_right _ (by omega)

/-- chainEnc gives whole blocks and a chain value of one block, where `enc` keeps a block's length (43 R350). -/
theorem length_chainEncLoop {enc : Bytes → Bytes} {bs : Nat} (henc : ∀ b, b.length = bs → (enc b).length = bs) (md : Mode)
    (m : Nat) {prev p : Bytes} (hprev : prev.length = bs) (hp : m * bs ≤ p.length) :
    (chainEncLoop enc bs md m prev p).1.length = m * bs ∧ (chainEncLoop enc bs md m prev p).2.length = bs := by
  induction m generalizing prev p with
  | zero => simp [chainEncLoop, hprev]
  | succ m ih =>
    rw [Nat.succ_mul] at hp ⊢
    have hhead : (p.take bs).length = bs := by simp; omega
    have htail : m * bs ≤ (p.drop bs).length := by simp; omega
    cases md with
    | ecb =>
      obtain ⟨hout, hlast⟩ := ih hprev htail
      simp [chainEncLoop, henc _ hhead, hout, hlast, Nat.add_comm]
    | cbc =>
      have hy : (enc (xorBytes (p.take bs) prev)).length = bs := henc _ (by simp [length_xorBytes, hprev]; omega)
      obtain ⟨hout, hlast⟩ := ih hy htail
      simp [chainEncLoop, hy, hout, hlast, Nat.add_comm]

/-- chainDec gives whole blocks and a chain value of one block, where `dec` keeps a block's length (43 R351). -/
theorem length_chainDecLoop {dec : Bytes → Bytes} {bs : Nat} (hdec : ∀ b, b.length = bs → (dec b).length = bs) (md : Mode)
    (m : Nat) {prev c : Bytes} (hprev : prev.length = bs) (hc : m * bs ≤ c.length) :
    (chainDecLoop dec bs md m prev c).1.length = m * bs ∧ (chainDecLoop dec bs md m prev c).2.length = bs := by
  induction m generalizing prev c with
  | zero => simp [chainDecLoop, hprev]
  | succ m ih =>
    rw [Nat.succ_mul] at hc ⊢
    have hhead : (c.take bs).length = bs := by simp; omega
    have htail : m * bs ≤ (c.drop bs).length := by simp; omega
    cases md with
    | ecb =>
      obtain ⟨hout, hlast⟩ := ih hprev htail
      simp [chainDecLoop, hdec _ hhead, hout, hlast, Nat.add_comm]
    | cbc =>
      obtain ⟨hout, hlast⟩ := ih hhead htail
      simp [chainDecLoop, length_xorBytes, hdec _ hhead, hprev, hout, hlast, Nat.add_comm]

/-- chainEnc under a schedule of `expand` gives its input's whole blocks and a chain value of one block (43 R350). -/
theorem length_chainEnc_expand {key iv : Bytes} {bs : Nat} (hk : LegalSize key.length) (hbs : LegalSize bs)
    (hiv : iv.length = bs) (p : Bytes) (md : Mode) :
    let r := chainEnc p (expand key bs) bs (roundCount key.length bs) md iv
    r.1.length = p.length / bs * bs ∧ r.2.length = bs := by
  refine length_chainEncLoop (fun b hb => ?_) md _ hiv (Nat.div_mul_le_self _ _)
  rw [length_encryptBlock fun r hr => (length_roundKeyOf_expand hk hbs hr).trans hb.symm, hb]

/-- chainDec under a schedule of `expand` gives its input's whole blocks and a chain value of one block (43 R351). -/
theorem length_chainDec_expand {key iv : Bytes} {bs : Nat} (hk : LegalSize key.length) (hbs : LegalSize bs)
    (hiv : iv.length = bs) (c : Bytes) (md : Mode) :
    let r := chainDec c (expand key bs) bs (roundCount key.length bs) md iv
    r.1.length = c.length / bs * bs ∧ r.2.length = bs := by
  refine length_chainDecLoop (fun b hb => ?_) md _ hiv (Nat.div_mul_le_self _ _)
  rw [length_decryptBlock fun r hr => (length_roundKeyOf_expand hk hbs hr).trans hb.symm, hb]

/-- Padding adds at most one block (44 R403, R410). -/
theorem length_padBytes_le (d : Bytes) {bs : Nat} (hbs : 0 < bs) (filler : Nat → Byte) (p : Scheme) :
    (padBytes d bs filler p).length ≤ d.length + bs := by
  have hz : (bs - d.length % bs) % bs < bs := Nat.mod_lt _ hbs
  have hm : d.length % bs < bs := Nat.mod_lt _ hbs
  cases p <;> simp [padBytes, padCount] <;> omega

/-- Unpadding adds nothing (44 R411). -/
theorem length_unpadBytes_le {d u : Bytes} {bs : Nat} {p : Scheme} (h : unpadBytes d bs p = some u) :
    u.length ≤ d.length := by
  have hcounted (h : unpadCounted d = some u) : u.length ≤ d.length := by
    unfold unpadCounted at h
    split at h
    · cases h
    · split at h
      · cases h
      · cases h; simp
  cases p with
  | zero => cases h; simp
  | none => cases h; rfl
  | pkcs7 => exact hcounted h
  | ansix923 => exact hcounted h
  | iso10126 => exact hcounted h

end Sys2Proof.Machine

namespace Sys2Proof

/-! ## The commands by what they write (10_state R76) -/

/-- The block size of a single-block command, one that writes STATE (42 R320 to R332). -/
def Instr.stateBlock? : Instr → Option Nat
  | .encBlock bs | .decBlock bs | .subBytes bs | .invSubBytes bs | .shiftRows bs | .invShiftRows bs | .mixColumns bs
  | .invMixColumns bs | .addRoundKey bs _ => some bs
  | .nop | .construct _ _ _ | .zeroize | .keyExpand _ | .encrypt _ | .decrypt _ | .pad _ _ | .unpad _ _ => Option.none

theorem Instr.blockSize?_of_stateBlock? {i : Instr} {bs : Nat} (h : i.stateBlock? = some bs) : i.blockSize? = some bs := by
  cases i <;> simp_all [Instr.stateBlock?, Instr.blockSize?]

/-- ENCRYPT or DECRYPT of a block size. -/
def Instr.IsCipher (i : Instr) (bs : Nat) : Prop := i = .encrypt bs ∨ i = .decrypt bs

/-- PAD or UNPAD of a block size. -/
def Instr.IsPadding (i : Instr) (bs : Nat) : Prop := ∃ p, i = .pad p bs ∨ i = .unpad p bs

namespace Machine

/-! ## What a completing command does (60 R521, R522), said once for all seventeen commands -/

/-- A completion of a command `i` at `s` and the state it leaves: the errors, and the effects of each kind of command. The
sizes of ENCRYPT's and DECRYPT's results hold where the slot's KLEN is legal, as the invariant keeps it. -/
inductive Completion (s : State) : Instr → State → Prop
  | failed {i : Instr} {c : ErrCode} (hi : ∀ md p k, i ≠ .construct md p k) (hc : c ≠ .ok) : Completion s i (s.failed c)
  | nop : Completion s .nop (s.complete .ok)
  | constructFailed (md : Mode) (p : Scheme) (klen : Nat) :
    Completion s (.construct md p klen) (s.clearSlot.clearSchedule.failed .invalidKeySize)
  | construct (md : Mode) (p : Scheme) {klen : Nat} {key : Vector Byte 32} (hklen : LegalSize klen)
    (hkey : key = s.latchedKey klen) :
    Completion s (.construct md p klen) ((s.setSlot key md p klen).clearSchedule.complete .ok)
  | zeroize : Completion s .zeroize (s.zeroized.complete .ok)
  | keyExpand {bs : Nat} (hv : s.cfgValid = true) (hbs : LegalSize bs) :
    Completion s (.keyExpand bs)
      ((s.storeSchedule (expand s.cipherKey bs) bs (roundCount s.cfgKlen.toNat bs)).complete .ok)
  | block {i : Instr} {bs : Nat} {b : Bytes} (hi : i.stateBlock? = some bs) (hbs : LegalSize bs) (hb : b.length = bs) :
    Completion s i ((s.storeState b).complete .ok)
  | cipher {i : Instr} {bs n : Nat} {out last : Bytes} (hi : i.IsCipher bs) (hv : s.cfgValid = true) (hbs : LegalSize bs)
    (hout : LegalSize s.cfgKlen.toNat → out.length ≤ s.outCap) (hlast : LegalSize s.cfgKlen.toNat → last.length = bs) :
    Completion s i
      (((s.storeCipher (expand s.cipherKey bs) bs (roundCount s.cfgKlen.toNat bs) out last).drawRng n).complete .ok)
  | padding {i : Instr} {bs n : Nat} {out : Bytes} (hi : i.IsPadding bs) (hout : out.length ≤ s.outCap) :
    Completion s i (((s.storeOut out).drawRng n).complete .ok)

theorem completion_of_roundStep {s t : State} {i : Instr} {f : Bytes → Bytes} {bs : Nat} (hi : i.stateBlock? = some bs)
    (hf : ∀ b, (f b).length = b.length) (h : roundStep f bs s = .next t) : Completion s i t := by
  obtain ⟨-, rfl⟩ | ⟨hbs, rfl⟩ := roundStep_cases h
  · exact .failed (by rintro md p k rfl; cases hi) (by decide)
  · exact .block hi hbs (by rw [hf, State.length_stateBytes])

theorem completion_of_keyedStep {s t : State} {i : Instr} {f : Bytes → Bytes} {bs r : Nat} (hi : i.stateBlock? = some bs)
    (hf : ∀ b, b.length = bs → (f b).length = bs) (h : keyedStep f bs r s = .next t) : Completion s i t := by
  obtain ⟨-, rfl⟩ | ⟨-, -, rfl⟩ | ⟨hbs, -, rfl⟩ := keyedStep_cases h
  · exact .failed (by rintro md p k rfl; cases hi) (by decide)
  · exact .failed (by rintro md p k rfl; cases hi) (by decide)
  · exact .block hi hbs (hf _ (s.length_stateBytes bs))

theorem completion_of_execPad {s t : State} {p : Scheme} {bs : Nat} (h : execPad p bs s = .next t) :
    Completion s (.pad p bs) t := by
  obtain ⟨c, hc, rfl⟩ | ⟨hbs, hcap, -, rfl⟩ := execPad_cases h
  · exact .failed nofun hc
  · have hpos : 0 < bs ∧ bs ≤ 32 := by rcases hbs with rfl | rfl | rfl <;> decide
    have hlen := length_padBytes_le s.inData hpos.1 s.filler p
    rw [State.length_inData] at hlen
    exact .padding (bs := bs) ⟨p, .inl rfl⟩ (by simp only [State.outCap, State.InOverflow] at *; omega)

theorem completion_of_execUnpad {s t : State} {p : Scheme} {bs : Nat} (h : execUnpad p bs s = .next t) :
    Completion s (.unpad p bs) t := by
  obtain ⟨c, hc, rfl⟩ | ⟨-, hcap, -, u, hu, rfl⟩ := execUnpad_cases h
  · exact .failed nofun hc
  · have hlen := length_unpadBytes_le hu
    rw [State.length_inData] at hlen
    exact .padding (n := 0) (bs := bs) ⟨p, .inr rfl⟩ (by simp only [State.outCap, State.InOverflow] at *; omega)

theorem completion_of_execEncrypt {s t : State} {bs : Nat} (h : execEncrypt bs s = .next t) :
    Completion s (.encrypt bs) t := by
  obtain ⟨c, hc, rfl⟩ | ⟨hv, hbs, hcap, -, -, w, r, rfl, hr, rfl⟩ := execEncrypt_cases h
  · exact .failed nofun hc
  · have hpos : 0 < bs ∧ bs ≤ 32 := by rcases hbs with rfl | rfl | rfl <;> decide
    have hpad := length_padBytes_le s.inData hpos.1 s.filler s.cfgPad
    rw [State.length_inData] at hpad
    have hlen (hk : LegalSize s.cfgKlen.toNat) : r.1.length ≤ s.outCap ∧ r.2.length = bs := by
      rw [← State.length_cipherKey] at hk hr
      obtain ⟨hout, hlast⟩ :=
        length_chainEnc_expand hk hbs (s.length_ivBytes bs) (padBytes s.inData bs s.filler s.cfgPad) s.cfgMode
      rw [← hr] at hout hlast
      have hblocks := Nat.div_mul_le_self (padBytes s.inData bs s.filler s.cfgPad).length bs
      exact ⟨by simp only [State.outCap, State.InOverflow] at *; omega, hlast⟩
    exact .cipher (.inl rfl) hv hbs (fun hk => (hlen hk).1) (fun hk => (hlen hk).2)

theorem completion_of_execDecrypt {s t : State} {bs : Nat} (h : execDecrypt bs s = .next t) :
    Completion s (.decrypt bs) t := by
  obtain ⟨c, hc, rfl⟩ | ⟨hv, hbs, hcap, -, -, w, r, u, rfl, hr, hu, rfl⟩ := execDecrypt_cases h
  · exact .failed nofun hc
  · have hunpad := length_unpadBytes_le hu
    have hlen (hk : LegalSize s.cfgKlen.toNat) : u.length ≤ s.outCap ∧ r.2.length = bs := by
      rw [← State.length_cipherKey] at hk hr
      obtain ⟨hout, hlast⟩ := length_chainDec_expand hk hbs (s.length_ivBytes bs) s.inData s.cfgMode
      rw [← hr, State.length_inData] at hout
      rw [← hr] at hlast
      have hblocks := Nat.div_mul_le_self s.inLen.toNat bs
      exact ⟨by simp only [State.outCap, State.InOverflow] at *; omega, hlast⟩
    exact .cipher (n := 0) (.inr rfl) hv hbs (fun hk => (hlen hk).1) (fun hk => (hlen hk).2)

/-- Every command's completion step is one of the completions. -/
theorem completion_of_exec {i : Instr} {s t : State} (h : exec i s = .next t) : Completion s i t := by
  cases i with
  | nop => rw [← finish_next.mp h]; exact .nop
  | construct md p klen =>
    obtain ⟨-, rfl⟩ | ⟨hklen, rfl⟩ := execConstruct_cases h
    · exact .constructFailed md p klen
    · exact .construct md p hklen rfl
  | zeroize => rw [← finish_next.mp h]; exact .zeroize
  | keyExpand bs =>
    obtain ⟨c, hc, rfl⟩ | ⟨hv, hbs, rfl⟩ := execKeyExpand_cases h
    · exact .failed nofun hc
    · exact .keyExpand hv hbs
  | encBlock bs =>
    exact completion_of_keyedStep rfl
      (fun b hb => by rw [length_encryptBlock fun r _ => (s.length_roundKey bs r).trans hb.symm, hb]) h
  | decBlock bs =>
    exact completion_of_keyedStep rfl
      (fun b hb => by rw [length_decryptBlock fun r _ => (s.length_roundKey bs r).trans hb.symm, hb]) h
  | subBytes bs => exact completion_of_roundStep rfl length_subBytes h
  | invSubBytes bs => exact completion_of_roundStep rfl length_invSubBytes h
  | shiftRows bs => exact completion_of_roundStep rfl length_shiftRows h
  | invShiftRows bs => exact completion_of_roundStep rfl length_invShiftRows h
  | mixColumns bs => exact completion_of_roundStep rfl length_mixColumns h
  | invMixColumns bs => exact completion_of_roundStep rfl length_invMixColumns h
  | addRoundKey bs r =>
    exact completion_of_keyedStep rfl
      (fun b hb => (length_addRoundKey ((s.length_roundKey bs r).trans hb.symm)).trans hb) h
  | encrypt bs => exact completion_of_execEncrypt h
  | decrypt bs => exact completion_of_execDecrypt h
  | pad p bs => exact completion_of_execPad h
  | unpad p bs => exact completion_of_execUnpad h

end Machine
end Sys2Proof

namespace Sys2Proof.Machine

/-! ## The frames of a completion (10_state R76) -/

/-- The buffers after the completion writes of ENCRYPT and DECRYPT (43 R360, R362): RK, OUT, and in CBC CHAIN. -/
def State.cipherMem (s : State) (w out last : Bytes) : Memory :=
  if s.cfgMode = .cbc then ((s.mem.writeBytes rkBase w).writeBytes outBase out).writeBytes chainBase last
  else (s.mem.writeBytes rkBase w).writeBytes outBase out

theorem storeCipher_eq (s : State) (w : Bytes) (bs nr : Nat) (out last : Bytes) :
    s.storeCipher w bs nr out last = ((s.setMem (s.cipherMem w out last)).setSchedule bs nr).setOutLen out.length := by
  rw [State.storeCipher, storeChain_eq, State.cipherMem]
  cases s.cfgMode <;> rfl

theorem read_cipherMem_outside {s : State} {w out last : Bytes} {x : Nat} (hrk : x < rkBase ∨ rkBase + w.length ≤ x)
    (hout : x < outBase ∨ outBase + out.length ≤ x)
    (hchain : s.cfgMode = .cbc → x < chainBase ∨ chainBase + last.length ≤ x) :
    (s.cipherMem w out last).read x = s.mem.read x := by
  unfold State.cipherMem
  split
  · next hcbc =>
    rw [Memory.read_writeBytes_outside _ (hchain hcbc), Memory.read_writeBytes_outside _ hout,
      Memory.read_writeBytes_outside _ hrk]
  · rw [Memory.read_writeBytes_outside _ hout, Memory.read_writeBytes_outside _ hrk]

/-- The chain value lies below RK and the result above it, so that RK holds the schedule. -/
theorem readBytes_cipherMem_rk {s : State} {w out last : Bytes} (hw : w.length ≤ rkCap) (hlast : last.length ≤ blockCap) :
    (s.cipherMem w out last).readBytes rkBase w.length = w := by
  refine (Memory.readBytes_congr (m := s.mem.writeBytes rkBase w) fun k hk => ?_).trans (Memory.readBytes_writeBytes _ _ _)
  have hout : rkBase + k < outBase := by simp only [rkBase, outBase, rkCap] at *; omega
  have hchain : chainBase + last.length ≤ rkBase + k := by simp only [rkBase, chainBase, blockCap] at *; omega
  unfold State.cipherMem
  split
  · rw [Memory.read_writeBytes_outside _ (.inr hchain), Memory.read_writeBytes_outside _ (.inl hout)]
  · rw [Memory.read_writeBytes_outside _ (.inl hout)]

/-- The buffer bytes the write matrix of R76 lets a command other than ZEROIZE write. -/
inductive MayWrite (s : State) (i : Instr) (x : Nat) : Prop
  | state {bs : Nat} (hi : i.stateBlock? = some bs) (hbs : bs ≤ blockCap) (hlo : stateBase ≤ x) (hhi : x < stateBase + bs)
  | chain {bs : Nat} (hi : i.IsCipher bs) (hbs : bs ≤ blockCap) (hcbc : s.cfgMode = .cbc) (hlo : chainBase ≤ x)
    (hhi : x < chainBase + bs)
  | rk {bs : Nat} (hi : i = .keyExpand bs ∨ i.IsCipher bs) (hlo : rkBase ≤ x) (hhi : x < rkBase + rkCap)
  | out {bs : Nat} (hi : i.IsCipher bs ∨ i.IsPadding bs) (hlo : outBase ≤ x)

theorem LegalSize.le_blockCap {bs : Nat} (h : LegalSize bs) : bs ≤ blockCap := by
  rcases h with rfl | rfl | rfl <;> decide

/-- The schedule of a constructed cipher fits RK. -/
theorem length_expand_cipherKey_le {s : State} (hs : s.SlotOk) (hv : s.cfgValid = true) {bs : Nat} (hbs : LegalSize bs) :
    (expand s.cipherKey bs).length ≤ rkCap := by
  rw [length_expand (by rw [State.length_cipherKey]; exact hs.klen hv) hbs]
  exact scheduleLength_le hbs

/-- A completion writes only the buffer bytes of its row of R76. -/
theorem Completion.read_eq {s t : State} {i : Instr} (h : Completion s i t) (hs : s.SlotOk) (hz : i ≠ .zeroize) {x : Nat}
    (hx : ¬ MayWrite s i x) : t.mem.read x = s.mem.read x := by
  cases h with
  | failed => rfl
  | nop => rfl
  | constructFailed => rfl
  | construct => rfl
  | zeroize => exact absurd rfl hz
  | keyExpand hv hbs =>
    have hlen := length_expand_cipherKey_le hs hv hbs
    refine Memory.read_writeBytes_outside _ ?_
    by_contra hin
    exact hx (.rk (.inl rfl) (by omega) (by omega))
  | block hi hbs hb =>
    refine Memory.read_writeBytes_outside _ ?_
    by_contra hin
    exact hx (.state hi hbs.le_blockCap (by omega) (by omega))
  | cipher hi hv hbs hout hlast =>
    have hlen := length_expand_cipherKey_le hs hv hbs
    have hlast := hlast (hs.klen hv)
    rw [storeCipher_eq]
    refine read_cipherMem_outside ?_ ?_ fun hcbc => ?_ <;> by_contra hin
    · exact hx (.rk (.inr hi) (by omega) (by omega))
    · exact hx (.out (.inl hi) (by omega))
    · exact hx (.chain hi hbs.le_blockCap hcbc (by omega) (by omega))
  | padding hi hout =>
    refine Memory.read_writeBytes_outside _ ?_
    by_contra hin
    exact hx (.out (.inr hi) (by omega))

/-- No command writes what is not the engine's. -/
theorem Completion.shellSame {s t : State} {i : Instr} (h : Completion s i t) : ShellSame s t := by
  cases h with
  | cipher => rw [storeCipher_eq]; exact ⟨rfl, rfl, rfl, rfl, rfl, rfl, rfl, rfl, rfl⟩
  | _ => exact ⟨rfl, rfl, rfl, rfl, rfl, rfl, rfl, rfl, rfl⟩

/-- IN_LEN and IV_LEN are ZEROIZE's alone. -/
theorem Completion.lengthsSame {s t : State} {i : Instr} (h : Completion s i t) (hz : i ≠ .zeroize) : LengthsSame s t := by
  cases h with
  | zeroize => exact absurd rfl hz
  | cipher => rw [storeCipher_eq]; exact ⟨rfl, rfl⟩
  | _ => exact ⟨rfl, rfl⟩

/-- The cipher slot is CONSTRUCT's and ZEROIZE's. -/
theorem Completion.slotSame {s t : State} {i : Instr} (h : Completion s i t) (hz : i ≠ .zeroize)
    (hc : ∀ md p k, i ≠ .construct md p k) : SlotSame s t := by
  cases h with
  | zeroize => exact absurd rfl hz
  | constructFailed => exact absurd rfl (hc _ _ _)
  | construct => exact absurd rfl (hc _ _ _)
  | cipher => rw [storeCipher_eq]; exact ⟨rfl, rfl, rfl, rfl, rfl⟩
  | _ => exact ⟨rfl, rfl, rfl, rfl, rfl⟩

/-- RK_INFO and RK_VALID are written by KEY_EXPAND, ENCRYPT, DECRYPT, CONSTRUCT and ZEROIZE. -/
theorem Completion.scheduleRegsSame {s t : State} {i : Instr} (h : Completion s i t) (hz : i ≠ .zeroize)
    (hc : ∀ md p k, i ≠ .construct md p k) (hk : ∀ bs, i ≠ .keyExpand bs) (he : ∀ bs, ¬ i.IsCipher bs) :
    ScheduleRegsSame s t := by
  cases h with
  | zeroize => exact absurd rfl hz
  | constructFailed => exact absurd rfl (hc _ _ _)
  | construct => exact absurd rfl (hc _ _ _)
  | keyExpand => exact absurd rfl (hk _)
  | cipher hi => exact absurd hi (he _)
  | _ => exact ⟨rfl, rfl, rfl⟩

/-- A command that succeeds writes OUT_LEN only with its result. -/
theorem Completion.outLen_eq {s t : State} {i : Instr} (h : Completion s i t) (hz : i ≠ .zeroize)
    (he : ∀ bs, ¬ i.IsCipher bs) (hp : ∀ bs, ¬ i.IsPadding bs) (hok : t.errcode = .ok) : t.outLen = s.outLen := by
  cases h with
  | failed _ hc => exact absurd hok hc
  | zeroize => exact absurd rfl hz
  | constructFailed => cases hok
  | cipher hi => exact absurd hi (he _)
  | padding hi => exact absurd hi (hp _)
  | _ => rfl

end Sys2Proof.Machine

namespace Sys2Proof.Machine

section Columns

variable {i : Instr} {s t : State} (h : Completion s i t) (hs : s.SlotOk) (hz : i ≠ .zeroize)
include h hs hz

/-- A run of bytes the row of the command in R76 does not name is as before. -/
theorem Completion.bytesSame {lo hi : Nat} (hx : ∀ x, lo ≤ x → x < hi → ¬ MayWrite s i x) : BytesSame lo hi s t :=
  fun x hlo hhi => h.read_eq hs hz (hx x hlo hhi)

/-- KEY, IV (10_state R62, R64). -/
theorem Completion.keyIvSame : BytesSame keyBase stateBase s t := by
  refine h.bytesSame hs hz ?_
  rintro x - hx (⟨-, -, hlo, -⟩ | ⟨-, -, -, hlo, -⟩ | ⟨-, hlo, -⟩ | ⟨-, hlo⟩) <;>
    simp only [stateBase, chainBase, rkBase, outBase] at * <;> omega

/-- IN (10_state R69). -/
theorem Completion.inSame : BytesSame inBase outBase s t := by
  refine h.bytesSame hs hz ?_
  rintro x hlo hhi (⟨-, hbs, -, hx⟩ | ⟨-, hbs, -, -, hx⟩ | ⟨-, -, hx⟩ | ⟨-, hx⟩) <;>
    simp only [stateBase, chainBase, rkBase, rkCap, blockCap, inBase, outBase] at * <;> omega

/-- STATE beyond the block of a single-block command, all of STATE for the others (10_state R65). -/
theorem Completion.stateSame {lo : Nat} (hb : ∀ bs, i.stateBlock? = some bs → stateBase + bs ≤ lo) :
    BytesSame lo chainBase s t := by
  refine h.bytesSame hs hz ?_
  rintro x hx hxhi (⟨hi, -, -, hxb⟩ | ⟨-, -, -, hxb, -⟩ | ⟨-, hxb, -⟩ | ⟨-, hxb⟩)
  · have := hb _ hi
    omega
  all_goals simp only [chainBase, rkBase, outBase] at *; omega

/-- CHAIN beyond the block of a CBC cipher command, all of CHAIN for the others (10_state R68). -/
theorem Completion.chainSame {lo : Nat} (hlo : chainBase ≤ lo)
    (hb : ∀ bs, i.IsCipher bs → s.cfgMode = .cbc → chainBase + bs ≤ lo) : BytesSame lo rkBase s t := by
  refine h.bytesSame hs hz ?_
  rintro x hx hxhi (⟨-, hbs, -, hxb⟩ | ⟨hi, -, hcbc, -, hxb⟩ | ⟨-, hxb, -⟩ | ⟨-, hxb⟩)
  · simp only [chainBase, stateBase, blockCap] at *; omega
  · have := hb _ hi hcbc
    omega
  all_goals simp only [rkBase, outBase] at *; omega

/-- RK (10_state R67). -/
theorem Completion.rkSame (hk : ∀ bs, i ≠ .keyExpand bs) (he : ∀ bs, ¬ i.IsCipher bs) : BytesSame rkBase romBase s t := by
  refine h.bytesSame hs hz ?_
  rintro x hx hxhi (⟨-, hbs, -, hxb⟩ | ⟨hi, -⟩ | ⟨hi | hi, -, -⟩ | ⟨-, hxb⟩)
  · simp only [rkBase, stateBase, blockCap] at *; omega
  · exact he _ hi
  · exact hk _ hi
  · exact he _ hi
  · simp only [romBase, outBase] at *; omega

/-- OUT (10_state R70). -/
theorem Completion.outSame (he : ∀ bs, ¬ i.IsCipher bs) (hp : ∀ bs, ¬ i.IsPadding bs) {x : Nat} (hx : outBase ≤ x) :
    t.mem.read x = s.mem.read x := by
  refine h.read_eq hs hz ?_
  rintro (⟨-, hbs, -, hxb⟩ | ⟨hi, -⟩ | ⟨-, -, hxb⟩ | ⟨hi | hi, -⟩)
  · simp only [outBase, stateBase, blockCap] at *; omega
  · exact he _ hi
  · simp only [outBase, rkBase, rkCap] at *; omega
  · exact he _ hi
  · exact hp _ hi

end Columns

/-- Settles O56: each column of R76 by the frame of the completion. -/
theorem writeMatrix : Obligations.WriteMatrix := by
  intro i s t hinv hexec hz
  have h := completion_of_exec hexec
  have hs := hinv.slot
  refine ⟨⟨h.keyIvSame hs hz, h.inSame hs hz, h.lengthsSame hz, h.shellSame⟩, ?_, ?_, ?_, ?_, ?_, ?_, h.slotSame hz⟩
  · intro bs hbs
    refine h.stateSame hs hz fun bs' hbs' => ?_
    rw [Option.some.inj (hbs.symm.trans (Instr.blockSize?_of_stateBlock? hbs'))]
  · intro hi
    refine h.stateSame hs hz fun bs hbs => ?_
    rcases hi with rfl | ⟨_, _, _, rfl⟩ | ⟨_, rfl | rfl | rfl⟩ | ⟨_, _, rfl | rfl⟩ <;> cases hbs
  · intro hi
    refine h.chainSame hs hz le_rfl fun bs hbs hcbc => ?_
    rcases hi with hi | hecb
    · exact (not_or.mpr (hi bs) hbs).elim
    · rw [hecb] at hcbc; cases hcbc
  · intro bs hbs
    refine h.chainSame hs hz (Nat.le_add_right _ _) fun bs' hbs' _ => ?_
    rcases hbs' with rfl | rfl <;> cases hbs <;> rfl
  · intro hi
    have he (bs : Nat) : ¬ i.IsCipher bs := not_or.mpr (hi bs).2
    exact ⟨h.rkSame hs hz (fun bs => (hi bs).1) he, fun hc => h.scheduleRegsSame hz hc (fun bs => (hi bs).1) he⟩
  · intro he hp
    have he (bs : Nat) : ¬ i.IsCipher bs := not_or.mpr (he bs)
    have hp (bs : Nat) : ¬ i.IsPadding bs := fun ⟨p, hi⟩ => not_or.mpr (hp p bs) hi
    exact ⟨fun x hx => h.outSame hs hz he hp hx, h.outLen_eq hz he hp⟩

end Sys2Proof.Machine

namespace Sys2Proof.Machine

/-! ## The register words as numbers (10_state R51, R53, R54, R57, R58) -/

theorem toNat_append_add {m n : Nat} (x : BitVec m) (y : BitVec n) : (x ++ y).toNat = 2 ^ n * x.toNat + y.toNat := by
  rw [BitVec.toNat_append, Nat.shiftLeft_eq, Nat.mul_comm, Nat.two_pow_add_eq_or_of_lt y.isLt]

theorem State.cfgWord_toNat (s : State) :
    s.cfgWord.toNat = s.cfgMode.bit.toNat + 2 * s.cfgPad.code.toNat + 256 * s.cfgKlen.toNat := by
  have h : s.cfgWord.toNat = (0#16 ++ s.cfgKlen ++ 0#4 ++ s.cfgPad.code ++ s.cfgMode.bit).toNat := rfl
  simp only [h, toNat_append_add, BitVec.toNat_ofNat]
  omega

theorem State.statusWord_of_clear {s : State} (hb : s.busy = false) (hd : s.done = false) (he : s.err = false)
    (ho : s.ovr = false) (hc : s.cfgValid = false) (hr : s.rkValid = false) : s.statusWord = 0 := by
  rw [State.statusWord, hb, hd, he, ho, hc, hr]; rfl

theorem State.cfgWord_of_empty {s : State} (hm : s.cfgMode = .ecb) (hp : s.cfgPad = .zero) (hk : s.cfgKlen = 0) :
    s.cfgWord = 0 := by
  rw [State.cfgWord, hm, hp, hk]; rfl

theorem State.ctrlWord_toNat (s : State) : s.ctrlWord.toNat = s.ie.toNat := by
  have h : s.ctrlWord.toNat = (0#31 ++ BitVec.ofBool s.ie).toNat := rfl
  simp only [h, toNat_append_add, BitVec.toNat_ofNat, BitVec.toNat_ofBool]
  omega

theorem State.ivLenWord_toNat (s : State) : s.ivLenWord.toNat = s.ivLen.toNat := by
  have h : s.ivLenWord.toNat = (0#24 ++ s.ivLen).toNat := rfl
  simp only [h, toNat_append_add, BitVec.toNat_ofNat]
  omega

theorem State.rkInfoWord_toNat (s : State) : s.rkInfoWord.toNat = s.rkBs.toNat + 256 * s.rkNr.toNat := by
  have h : s.rkInfoWord.toNat = (0#20 ++ s.rkNr ++ s.rkBs).toNat := rfl
  simp only [h, toNat_append_add, BitVec.toNat_ofNat]
  omega

theorem State.rkInfoWord_eq_zero (s : State) : s.rkInfoWord = 0#32 ↔ s.rkNr = 0#4 ∧ s.rkBs = 0#8 := by
  simp only [← BitVec.toNat_inj, s.rkInfoWord_toNat, BitVec.toNat_ofNat]
  omega

end Sys2Proof.Machine

namespace Sys2Proof.Machine

/-! ## The invariant's parts under a frame -/

theorem State.MemOk.of_eq {s t : State} (h : s.MemOk) (hm : t.mem = s.mem) (hcap : t.inCap = s.inCap) : t.MemOk where
  wf := hm ▸ h.wf
  inBuffers := by rw [hm, hcap]; exact h.inBuffers
  capMin := hcap ▸ h.capMin
  capMax := hcap ▸ h.capMax

/-- A wide write inside the buffers keeps the memory in order. -/
theorem State.MemOk.writeBytes {s : State} (h : s.MemOk) {a : Nat} {b : Bytes}
    (hb : ∀ k, k < b.length → isBufferOffset s.inCap (a + k) = true) : (s.setMem (s.mem.writeBytes a b)).MemOk where
  wf := Memory.wf_writeBytes h.wf _ _
  inBuffers := Memory.inBuffers_writeBytes h.inBuffers hb
  capMin := h.capMin
  capMax := h.capMax

theorem isBufferOffset_iff (inCap a : Nat) : isBufferOffset inCap a = true ↔
    (keyBase ≤ a ∧ a < chainBase + blockCap) ∨ (rkBase ≤ a ∧ a < rkBase + rkCap) ∨ (inBase ≤ a ∧ a < inBase + inCap) ∨
      (outBase ≤ a ∧ a < outBase + (inCap + 32)) := by
  simp only [isBufferOffset, Bool.or_eq_true, decide_eq_true_eq, or_assoc]

theorem State.MemOk.storeState {s : State} (h : s.MemOk) {b : Bytes} (hb : b.length ≤ blockCap) : (s.storeState b).MemOk :=
  h.writeBytes fun k hk => by rw [isBufferOffset_iff]; simp only [stateBase, keyBase, chainBase, blockCap] at *; omega

/-- A chain value of at most a block keeps the memory in order. -/
theorem State.MemOk.writeChain {s : State} (h : s.MemOk) {b : Bytes} (hb : b.length ≤ blockCap) :
    (s.setMem (s.mem.writeBytes chainBase b)).MemOk :=
  h.writeBytes fun k hk => by rw [isBufferOffset_iff]; simp only [keyBase, chainBase, blockCap] at *; omega

theorem State.MemOk.writeRk {s : State} (h : s.MemOk) {w : Bytes} (hw : w.length ≤ rkCap) :
    (s.setMem (s.mem.writeBytes rkBase w)).MemOk :=
  h.writeBytes fun k hk => by rw [isBufferOffset_iff]; simp only [rkBase, rkCap] at *; omega

theorem State.MemOk.writeOut {s : State} (h : s.MemOk) {out : Bytes} (hout : out.length ≤ s.outCap) :
    (s.setMem (s.mem.writeBytes outBase out)).MemOk :=
  h.writeBytes fun k hk => by rw [isBufferOffset_iff]; simp only [outBase, State.outCap] at *; omega

/-- The writes of ENCRYPT and DECRYPT keep the memory in order. -/
theorem State.MemOk.cipherMem {s : State} (h : s.MemOk) {w out last : Bytes} (hw : w.length ≤ rkCap)
    (hout : out.length ≤ s.outCap) (hlast : last.length ≤ blockCap) : (s.setMem (s.cipherMem w out last)).MemOk := by
  unfold State.cipherMem
  split
  · exact ((h.writeRk hw).writeOut hout).writeChain hlast
  · exact (h.writeRk hw).writeOut hout

theorem State.SlotOk.of_same {s t : State} (h : s.SlotOk) (ht : SlotSame s t) : t.SlotOk where
  klen := by rw [ht.valid, ht.klen]; exact h.klen
  empty := by rw [ht.valid, State.cfgWord, ht.mode, ht.pad, ht.klen]; exact h.empty

theorem State.SlotOk.of_empty {t : State} (hv : t.cfgValid = false) (hm : t.cfgMode = .ecb) (hp : t.cfgPad = .zero)
    (hk : t.cfgKlen = 0) : t.SlotOk where
  klen h := by rw [hv] at h; cases h
  empty _ := State.cfgWord_of_empty hm hp hk

theorem State.SlotOk.of_filled {t : State} (hv : t.cfgValid = true) (hk : LegalSize t.cfgKlen.toNat) : t.SlotOk where
  klen _ := hk
  empty h := by rw [hv] at h; cases h

theorem cipherKey_of_same {s t : State} (ht : SlotSame s t) : t.cipherKey = s.cipherKey := by
  unfold State.cipherKey State.ckeyByte
  rw [ht.ckey, ht.klen]

/-- The schedule stays good where the slot, its registers and the bytes of RK stay. -/
theorem State.ScheduleOk.of_same {s t : State} (h : s.ScheduleOk) (hslot : SlotSame s t) (hregs : ScheduleRegsSame s t)
    (hrk : BytesSame rkBase (rkBase + rkCap) s t) : t.ScheduleOk where
  info := by rw [State.rkInfoWord, hregs.nr, hregs.bs, hregs.valid]; exact h.info
  slot := by rw [hregs.valid, hslot.valid]; exact h.slot
  size := by rw [hregs.valid, hregs.bs]; exact h.size
  rounds := by rw [hregs.valid, hregs.nr, hslot.klen, hregs.bs]; exact h.rounds
  bytes hv := by
    rw [hregs.valid] at hv
    rw [hslot.klen, hregs.bs, cipherKey_of_same hslot, ← h.bytes hv]
    have hlen := scheduleLength_le (ks := s.cfgKlen.toNat) (h.size hv)
    exact Memory.readBytes_congr fun k hk => hrk _ (by omega) (by omega)

theorem State.ScheduleOk.of_cleared {t : State} (hv : t.rkValid = false) (hbs : t.rkBs = 0) (hnr : t.rkNr = 0) :
    t.ScheduleOk where
  info := iff_of_true (t.rkInfoWord_eq_zero.mpr ⟨hnr, hbs⟩) hv
  slot h := by rw [hv] at h; cases h
  size h := by rw [hv] at h; cases h
  rounds h := by rw [hv] at h; cases h
  bytes h := by rw [hv] at h; cases h

theorem toNat_ofNat_of_legalSize {n : Nat} (h : LegalSize n) : (BitVec.ofNat 8 n).toNat = n := by
  rcases h with rfl | rfl | rfl <;> rfl

/-- The schedule is good once expand of the constructed key stands in RK with its registers (41 R265). -/
theorem State.ScheduleOk.of_expanded {s t : State} {bs : Nat} (hs : s.SlotOk) (hv : s.cfgValid = true) (hbs : LegalSize bs)
    (hslot : SlotSame s t) (hrv : t.rkValid = true) (hrb : t.rkBs = BitVec.ofNat 8 bs)
    (hrn : t.rkNr = BitVec.ofNat 4 (roundCount s.cfgKlen.toNat bs))
    (hrk : t.mem.readBytes rkBase (expand s.cipherKey bs).length = expand s.cipherKey bs) : t.ScheduleOk := by
  have hsize : t.rkBs.toNat = bs := by rw [hrb]; exact toNat_ofNat_of_legalSize hbs
  have hrounds : t.rkNr.toNat = roundCount s.cfgKlen.toNat bs := by
    have := roundCount_le s.cfgKlen.toNat bs
    rw [hrn, BitVec.toNat_ofNat]
    exact Nat.mod_eq_of_lt (by omega)
  have hinfo : t.rkInfoWord ≠ 0 := by
    intro h0
    have hword : 0 = t.rkBs.toNat + 256 * t.rkNr.toNat := t.rkInfoWord_toNat ▸ (congrArg BitVec.toNat h0).symm
    rcases hbs with h | h | h <;> omega
  have hlen : (expand s.cipherKey bs).length = scheduleLength s.cfgKlen.toNat bs := by
    rw [length_expand (by rw [State.length_cipherKey]; exact hs.klen hv) hbs, State.length_cipherKey]
  exact {
    info := iff_of_false hinfo (by simp [hrv])
    slot := fun _ => hslot.valid.trans hv
    size := fun _ => hsize ▸ hbs
    rounds := fun _ => by rw [hrounds, hsize, hslot.klen]
    bytes := fun _ => by rw [hsize, hslot.klen, cipherKey_of_same hslot, ← hlen, hrk] }

/-- A completed state with rst low is in order as soon as its result is. -/
theorem State.FlowOk.of_completed {t : State} {c : ErrCode} (h : CompletedWith c t) (hrst : t.rst = false)
    (hfail : c ≠ .ok → t.outLen = 0) (hres : t.outLen.toNat ≤ t.outCap) : t.FlowOk where
  busy hb := by rw [State.busy, h.seq] at hb; cases hb
  failed he := hfail (h.errcode ▸ of_decide_eq_true he)
  result := hres
  held hr := by rw [hrst] at hr; cases hr

/-- An error leaves no result (60 R522). -/
theorem State.FlowOk.of_failed {s : State} (hrst : s.rst = false) (c : ErrCode) : (s.failed c).FlowOk :=
  .of_completed (c := c) ⟨rfl, rfl, rfl⟩ hrst (fun _ => rfl) (Nat.zero_le _)

/-- A success that leaves OUT_LEN alone. -/
theorem State.FlowOk.complete_ok {s : State} (hrst : s.rst = false) (hres : s.outLen.toNat ≤ s.outCap) :
    (s.complete .ok).FlowOk :=
  .of_completed (c := .ok) ⟨rfl, rfl, rfl⟩ hrst (absurd rfl) hres

theorem toNat_ofNat_le (n : Nat) : (BitVec.ofNat 32 n).toNat ≤ n := by
  rw [BitVec.toNat_ofNat]; exact Nat.mod_le _ _

/-! ## The invariant is kept by a completion -/

theorem State.Inv.of_same {s t : State} (h : s.Inv) (hslot : SlotSame s t) (hregs : ScheduleRegsSame s t)
    (hrk : BytesSame rkBase (rkBase + rkCap) s t) (hmem : t.MemOk) (hflow : t.FlowOk) : t.Inv :=
  ⟨hmem, h.slot.of_same hslot, h.schedule.of_same hslot hregs hrk, hflow⟩

theorem State.Inv.of_expanded {s t : State} {bs : Nat} (h : s.Inv) (hv : s.cfgValid = true) (hbs : LegalSize bs)
    (hslot : SlotSame s t) (hrv : t.rkValid = true) (hrb : t.rkBs = BitVec.ofNat 8 bs)
    (hrn : t.rkNr = BitVec.ofNat 4 (roundCount s.cfgKlen.toNat bs))
    (hrk : t.mem.readBytes rkBase (expand s.cipherKey bs).length = expand s.cipherKey bs)
    (hmem : t.MemOk) (hflow : t.FlowOk) : t.Inv :=
  ⟨hmem, h.slot.of_same hslot, .of_expanded h.slot hv hbs hslot hrv hrb hrn hrk, hflow⟩

theorem State.Inv.failed {s : State} (h : s.Inv) (hrst : s.rst = false) (c : ErrCode) : (s.failed c).Inv :=
  h.of_same ⟨rfl, rfl, rfl, rfl, rfl⟩ ⟨rfl, rfl, rfl⟩ (fun _ _ _ => rfl) (h.mem.of_eq rfl rfl) (.of_failed hrst c)

theorem Completion.inv {i : Instr} {s t : State} (hc : Completion s i t) (h : s.Inv) (hrst : s.rst = false) : t.Inv := by
  cases hc with
  | failed => exact h.failed hrst _
  | nop =>
    exact h.of_same ⟨rfl, rfl, rfl, rfl, rfl⟩ ⟨rfl, rfl, rfl⟩ (fun _ _ _ => rfl) (h.mem.of_eq rfl rfl)
      (.complete_ok hrst h.flow.result)
  | constructFailed =>
    exact ⟨h.mem.of_eq rfl rfl, .of_empty rfl rfl rfl rfl, .of_cleared rfl rfl rfl,
      .of_failed (s := s.clearSlot.clearSchedule) hrst _⟩
  | construct md p hklen hkey =>
    exact ⟨h.mem.of_eq rfl rfl, .of_filled rfl ((toNat_ofNat_of_legalSize hklen).symm ▸ hklen), .of_cleared rfl rfl rfl,
      .complete_ok hrst h.flow.result⟩
  | zeroize =>
    exact ⟨⟨rfl, rfl, h.mem.capMin, h.mem.capMax⟩, .of_empty rfl rfl rfl rfl, .of_cleared rfl rfl rfl,
      .complete_ok hrst (Nat.zero_le _)⟩
  | keyExpand hv hbs =>
    have hw := length_expand_cipherKey_le h.slot hv hbs
    exact h.of_expanded hv hbs ⟨rfl, rfl, rfl, rfl, rfl⟩ rfl rfl rfl (Memory.readBytes_writeBytes _ _ _)
      ((h.mem.writeRk hw).of_eq rfl rfl) (.complete_ok hrst h.flow.result)
  | block hi hbs hb =>
    refine h.of_same ⟨rfl, rfl, rfl, rfl, rfl⟩ ⟨rfl, rfl, rfl⟩ (fun x hlo _ => ?_)
      ((h.mem.storeState (hb.trans_le hbs.le_blockCap)).of_eq rfl rfl) (.complete_ok hrst h.flow.result)
    refine Memory.read_writeBytes_outside _ (.inr ?_)
    have := hbs.le_blockCap
    simp only [stateBase, rkBase, blockCap] at *; omega
  | cipher hi hv hbs hout hlast =>
    have hk := h.slot.klen hv
    have hw := length_expand_cipherKey_le h.slot hv hbs
    have hout := hout hk
    have hlast := (hlast hk).trans_le hbs.le_blockCap
    rw [storeCipher_eq]
    exact h.of_expanded hv hbs ⟨rfl, rfl, rfl, rfl, rfl⟩ rfl rfl rfl (readBytes_cipherMem_rk hw hlast)
      ((h.mem.cipherMem hw hout hlast).of_eq rfl rfl) (.complete_ok hrst ((toNat_ofNat_le _).trans hout))
  | padding hi hout =>
    refine h.of_same ⟨rfl, rfl, rfl, rfl, rfl⟩ ⟨rfl, rfl, rfl⟩ (fun x _ hhi => ?_) ((h.mem.writeOut hout).of_eq rfl rfl)
      (.complete_ok hrst ((toNat_ofNat_le _).trans hout))
    refine Memory.read_writeBytes_outside _ (.inl ?_)
    simp only [rkBase, rkCap, outBase] at *; omega

end Sys2Proof.Machine

namespace Sys2Proof.Machine

/-! ## The host's writes (20_memory R108, R111) -/

theorem hostWritable_iff_regionOf (inCap x : Nat) : hostWritable inCap x = true ↔
    regionOf inCap x = .key ∨ regionOf inCap x = .iv ∨ regionOf inCap x = .state ∨ regionOf inCap x = .inBuf := by
  unfold hostWritable
  cases regionOf inCap x <;> simp

/-- The host writes KEY, IV, STATE and IN below IN_CAP. -/
theorem hostWritable_iff (inCap x : Nat) : hostWritable inCap x = true ↔
    (keyBase ≤ x ∧ x < stateBase + blockCap) ∨ (inBase ≤ x ∧ x < inBase + inCap) := by
  rw [hostWritable_iff_regionOf]
  simp only [keyBase, stateBase, blockCap, inBase]
  fun_cases regionOf inCap x <;> simp only [reduceCtorEq, or_true, or_false, true_iff, false_iff] <;> omega

theorem inBuffers_hostWriteBytes {inCap : Nat} {m : Memory} (h : m.inBuffers inCap = true) (off : Nat) (bs : Bytes) :
    (hostWriteBytes inCap m off bs).inBuffers inCap = true := by
  induction bs generalizing m off with
  | nil => exact h
  | cons b bs ih =>
    rw [hostWriteBytes]
    split
    · next hw =>
      refine ih (Memory.inBuffers_write h ?_ b) _
      rw [hostWritable_iff] at hw
      rw [isBufferOffset_iff]
      simp only [keyBase, stateBase, chainBase, blockCap, inBase] at *; omega
    · exact ih h _

/-- No host write reaches RK (10_state R67). -/
theorem hostWriteBytes_rkSame (s : State) (off : Nat) (bs : Bytes) :
    BytesSame rkBase (rkBase + rkCap) s (s.setMem (hostWriteBytes s.inCap s.mem off bs)) := by
  intro x hlo hhi
  refine (read_hostWriteBytes _ _ _ _ _).trans (if_neg fun ⟨_, _, hw⟩ => ?_)
  rw [hostWritable_iff] at hw
  simp only [keyBase, stateBase, blockCap, inBase, rkBase, rkCap] at *; omega

/-! ## The invariant is kept by a host step -/

/-- Register writes that leave the sequencer, ERRCODE and OUT_LEN alone and do not set DONE keep the flow facts. -/
theorem State.FlowOk.of_same {s t : State} (h : s.FlowOk) (hrst : t.rst = false) (hbusy : t.busy = true → s.busy = true)
    (hdone : s.done = false → t.done = false) (herr : t.errcode = s.errcode) (hlen : t.outLen = s.outLen)
    (hcap : t.inCap = s.inCap) : t.FlowOk where
  busy hb := ⟨hdone (h.busy (hbusy hb)).1, herr.trans (h.busy (hbusy hb)).2⟩
  failed := by rw [State.err, herr, hlen]; exact h.failed
  result := by rw [hlen, State.outCap, hcap]; exact h.result
  held hr := by rw [hrst] at hr; cases hr

/-- What changes neither the slot, the schedule, the buffers nor IN_CAP keeps the invariant with the flow facts. -/
theorem State.Inv.of_registers {s t : State} (h : s.Inv) (hslot : SlotSame s t) (hregs : ScheduleRegsSame s t)
    (hmem : t.mem = s.mem) (hcap : t.inCap = s.inCap) (hflow : t.FlowOk) : t.Inv :=
  h.of_same hslot hregs (fun _ _ _ => by rw [hmem]) (h.mem.of_eq hmem hcap) hflow

/-- A reset takes the registers to their reset values and holds them there (70 R550). -/
theorem State.Inv.resetNow {s : State} (h : s.Inv) : s.resetNow.Inv where
  mem := ⟨rfl, rfl, h.mem.capMin, h.mem.capMax⟩
  slot := .of_empty rfl rfl rfl rfl
  schedule := .of_cleared rfl rfl rfl
  flow := {
    busy := fun hb => by cases hb
    failed := fun _ => rfl
    result := Nat.zero_le _
    held := fun _ => 
      ⟨rfl, State.statusWord_of_clear rfl rfl rfl rfl rfl rfl, State.cfgWord_of_empty rfl rfl rfl, rfl, rfl, rfl, rfl,
        s.resetNow.rkInfoWord_eq_zero.mpr ⟨rfl, rfl⟩⟩ }

section HostAccess

variable {s : State} (h : s.Inv) (hrst : s.rst = false)
include h hrst

theorem State.Inv.respond (r : Response) : (s.respond r).Inv :=
  h.of_registers ⟨rfl, rfl, rfl, rfl, rfl⟩ ⟨rfl, rfl, rfl⟩ rfl rfl (h.flow.of_same hrst id id rfl rfl rfl)

theorem State.Inv.hostRead (off n : Nat) : (Machine.hostRead s off n).Inv := by
  obtain ⟨a, d, heq⟩ := hostRead_shape s off n
  rw [heq]
  exact h.of_registers ⟨rfl, rfl, rfl, rfl, rfl⟩ ⟨rfl, rfl, rfl⟩ rfl rfl (h.flow.of_same hrst id id rfl rfl rfl)

theorem State.Inv.writeStatus (v : Word) : (s.writeStatus v).Inv :=
  h.of_registers ⟨rfl, rfl, rfl, rfl, rfl⟩ ⟨rfl, rfl, rfl⟩ rfl rfl
    (h.flow.of_same hrst id (fun hd => by rw [State.writeStatus_done, hd, Bool.false_and]) rfl rfl rfl)

theorem State.Inv.writeCtrl (v : Word) : (s.writeCtrl v).Inv :=
  h.of_registers ⟨rfl, rfl, rfl, rfl, rfl⟩ ⟨rfl, rfl, rfl⟩ rfl rfl (h.flow.of_same hrst id id rfl rfl rfl)

theorem State.Inv.setOvr : s.setOvr.Inv :=
  h.of_registers ⟨rfl, rfl, rfl, rfl, rfl⟩ ⟨rfl, rfl, rfl⟩ rfl rfl (h.flow.of_same hrst id id rfl rfl rfl)

theorem State.Inv.setLengths (n : Word) (l : Byte) : State.Inv { s with inLen := n, ivLen := l } :=
  h.of_registers ⟨rfl, rfl, rfl, rfl, rfl⟩ ⟨rfl, rfl, rfl⟩ rfl rfl (h.flow.of_same hrst id id rfl rfl rfl)

/-- An issued command starts with DONE and ERRCODE cleared (60 R520). -/
theorem State.Inv.issue (v : Word) : (s.issue v).Inv := by
  refine h.of_registers ⟨rfl, rfl, rfl, rfl, rfl⟩ ⟨rfl, rfl, rfl⟩ rfl rfl
    ⟨fun _ => ⟨rfl, rfl⟩, fun he => ?_, h.flow.result, fun hr => ?_⟩
  · exact absurd rfl (of_decide_eq_true he)
  · rw [State.issue_rst, hrst] at hr; cases hr

theorem State.Inv.hostWriteBytes (off : Nat) (b : Bytes) :
    (s.setMem (Machine.hostWriteBytes s.inCap s.mem off b)).Inv :=
  h.of_same ⟨rfl, rfl, rfl, rfl, rfl⟩ ⟨rfl, rfl, rfl⟩ (hostWriteBytes_rkSame s off b)
    ⟨wf_hostWriteBytes h.mem.wf _ _, inBuffers_hostWriteBytes h.mem.inBuffers _ _, h.mem.capMin, h.mem.capMax⟩
    (h.flow.of_same hrst id id rfl rfl rfl)

theorem State.Inv.hostWrite (off n : Nat) (v : Word) : (Machine.hostWrite s off n v).Inv := by
  obtain ⟨-, heq⟩ | ⟨-, ⟨-, heq⟩ | ⟨-, heq⟩ | ⟨-, heq⟩ | ⟨-, -, heq⟩ | ⟨-, -, heq⟩ | ⟨-, -, heq⟩ | ⟨-, heq⟩⟩ :=
    hostWrite_cases s off n v <;> rw [heq]
  · exact h.respond hrst _
  · exact (h.writeStatus hrst v).respond hrst _
  · exact (h.writeCtrl hrst v).respond hrst _
  · exact (h.setOvr hrst).respond hrst _
  · exact (h.issue hrst v).respond hrst _
  · exact (h.setLengths hrst v s.ivLen).respond hrst _
  · exact (h.setLengths hrst s.inLen (v.extractLsb' 0 8)).respond hrst _
  · exact (h.hostWriteBytes hrst off _).respond hrst _

theorem State.Inv.hostAccess (r : BusRequest) : (Machine.hostAccess s r).Inv := by
  unfold Machine.hostAccess
  split
  · exact h.hostWrite hrst _ _ _
  · exact h.hostRead hrst _ _

theorem State.Inv.hostEvent (e : HostEvent) : (Machine.hostEvent s e).Inv := by
  cases e with
  | access r => exact h.hostAccess hrst r
  | rstRise => exact h.resetNow
  | rstFall => exact h

theorem State.Inv.hostStep : (Machine.hostStep s).Inv := by
  obtain ⟨-, heq⟩ | ⟨e, es, -, heq⟩ := hostStep_cases s <;> rw [heq]
  · exact h
  · have hnext : State.Inv { s with host := es } :=
      h.of_registers ⟨rfl, rfl, rfl, rfl, rfl⟩ ⟨rfl, rfl, rfl⟩ rfl rfl (h.flow.of_same hrst id id rfl rfl rfl)
    exact hnext.hostEvent hrst e

/-- One host step of LATENCY less is left (log 5). -/
theorem State.Inv.countdown {w : Word} {k : Nat} (hseq : s.seq = .executing w (k + 1)) :
    State.Inv { s with seq := .executing w k } :=
  h.of_registers ⟨rfl, rfl, rfl, rfl, rfl⟩ ⟨rfl, rfl, rfl⟩ rfl rfl
    (h.flow.of_same hrst (fun _ => by rw [State.busy, hseq]) id rfl rfl rfl)

end HostAccess

/-- While rst = 1 nothing but rst and the host's list changes (70 R550). -/
theorem State.Inv.heldInReset {s : State} (h : s.Inv) (es : List HostEvent) : State.Inv { s with host := es } :=
  h.of_registers ⟨rfl, rfl, rfl, rfl, rfl⟩ ⟨rfl, rfl, rfl⟩ rfl rfl ⟨h.flow.busy, h.flow.failed, h.flow.result, h.flow.held⟩

/-- The block starts when rst falls (70 R551). -/
theorem State.Inv.rstFall {s : State} (h : s.Inv) (es : List HostEvent) : State.Inv { s with rst := false, host := es } :=
  h.of_registers ⟨rfl, rfl, rfl, rfl, rfl⟩ ⟨rfl, rfl, rfl⟩ rfl rfl (h.flow.of_same rfl id id rfl rfl rfl)

/-- Settles O59: by the cases of a step, the invariant is kept in reset, by every host event and by every completion. -/
theorem invariantKept : Obligations.InvariantKept := by
  intro s t h hstep
  obtain ⟨-, rfl | ⟨es, -, rfl⟩ | ⟨es, -, rfl⟩⟩ | ⟨hrst, -, rfl⟩ | ⟨hrst, w, k, hseq, rfl⟩ | ⟨hrst, w, i, -, -, hexec⟩ |
    ⟨hrst, w, e, -, -, rfl⟩ := step_cases hstep
  · exact h
  · exact h.rstFall es
  · exact h.heldInReset es
  · exact h.hostStep hrst
  · exact (h.countdown hrst hseq).hostStep hrst
  · exact (completion_of_exec hexec).inv h hrst
  · exact h.failed hrst _

/-- Settles O58: no byte is listed and every register is 0. -/
theorem invariantAtReset : Obligations.InvariantAtReset where
  mem := ⟨rfl, rfl, by decide, by decide⟩
  slot := .of_empty rfl rfl rfl rfl
  schedule := .of_cleared rfl rfl rfl
  flow := {
    busy := fun hb => by cases hb
    failed := fun _ => rfl
    result := Nat.zero_le _
    held := fun hr => by cases hr }

end Sys2Proof.Machine

namespace Sys2Proof.Machine

/-! ## Byte lanes (20_memory R104) -/

/-- The first byte of a word is its lane 0. -/
theorem laneByte_leWord_zero (b : Byte) (bs : Bytes) : laneByte (leWord (b :: bs)) 0 = b := by
  ext i hi
  simp [laneByte, leWord, hi]
  omega

/-- The later bytes lie one lane up. -/
theorem laneByte_leWord_succ (b : Byte) (bs : Bytes) {k : Nat} (hk : k + 1 < 4) :
    laneByte (leWord (b :: bs)) (k + 1) = laneByte (leWord bs) k := by
  ext i hi
  have hlane : 8 * (k + 1) + i = 8 + (8 * k + i) := by omega
  have hword : 8 + (8 * k + i) < 32 := by omega
  simp [laneByte, leWord, hlane, hword, BitVec.getLsbD_eq_getElem (show 8 * k + i < 32 by omega)]

/-- Byte k of the bytes stands in lane k, and lanes past them hold 0. -/
theorem laneByte_leWord (bs : Bytes) {k : Nat} (hk : k < 4) : laneByte (leWord bs) k = bs.getD k 0 := by
  induction bs generalizing k with
  | nil => simp [leWord, laneByte]
  | cons b bs ih =>
    cases k with
    | zero => rw [laneByte_leWord_zero, List.getD_cons_zero]
    | succ k => rw [laneByte_leWord_succ b bs hk, ih (by omega), List.getD_cons_succ]

theorem length_laneBytes (v : Word) (n : Nat) : (laneBytes v n).length = n := by simp [laneBytes]

theorem getD_laneBytes (v : Word) {n k : Nat} (hk : k < n) : (laneBytes v n).getD k 0 = laneByte v k := by
  simp [laneBytes, hk]

/-! ## Host reads (20_memory R110, 10_state R85) -/

/-- A permitted read of a register, defined while idle and for STATUS, CTRL, CAP and ID also while busy. -/
theorem hostRead_register {s : State} {off n : Nat} (hp : Permitted off n) (hoff : off < 0x100)
    (hb : s.busy = false ∨ BusyReadable off) : hostRead s off n = s.respond (.data (regWord s off)) := by
  have hdefined : ¬ (s.busy = true ∧ ¬ BusyReadable off) := by
    rintro ⟨hbusy, hnot⟩
    rcases hb with hidle | hreadable
    · rw [hidle] at hbusy; cases hbusy
    · exact hnot hreadable
  rw [hostRead, if_neg (not_not_intro hp), if_neg hdefined, readValue, if_pos hoff]

/-- Any other permitted read while busy draws one byte per byte read (log 3). -/
theorem hostRead_busy {s : State} {off n : Nat} (hp : Permitted off n) (hb : s.busy = true) (hoff : ¬ BusyReadable off) :
    hostRead s off n =
      { s with
        resp := some (.data (leWord ((List.range n).map fun k => Config.busyByte (s.busyDraws + k))))
        busyDraws := s.busyDraws + n } := by
  rw [hostRead, if_neg (not_not_intro hp), if_pos ⟨hb, hoff⟩]

/-- KEY's bytes are the only bytes of their region (20_memory R101). -/
theorem regionOf_eq_key_iff (inCap off : Nat) :
    regionOf inCap off = .key ↔ keyBase ≤ off ∧ off < keyBase + blockCap := by
  simp only [keyBase, blockCap]
  fun_cases regionOf inCap off <;> simp only [reduceCtorEq, true_iff, false_iff] <;> omega

/-- What the host reads of a buffer byte does not depend on KEY (10_state R62). -/
theorem hostByte_congr {s t : State} (hcap : t.inCap = s.inCap)
    (hm : ∀ x, x < keyBase ∨ keyBase + blockCap ≤ x → t.mem.read x = s.mem.read x) (off : Nat) :
    hostByte t off = hostByte s off := by
  by_cases hkey : regionOf s.inCap off = .key
  · simp only [hostByte, hcap, hkey]
  · have hread : t.mem.read off = s.mem.read off := by
      rw [regionOf_eq_key_iff] at hkey
      exact hm off (by omega)
    simp only [hostByte, hcap, hread]

/-! ## Host writes (20_memory R111) -/

theorem hostWrite_of_permitted {s : State} {off n : Nat} (hp : Permitted off n) (v : Word) :
    hostWrite s off n v = (writeEffect s off n v).respond .ack := if_neg (not_not_intro hp)

/-- The response to a write is an acknowledgement or a bus error, and tells nothing of the state (R107, log 8). -/
theorem hostWrite_resp (s : State) (off n : Nat) (v : Word) :
    (hostWrite s off n v).resp = if Permitted off n then some .ack else some .busError := by
  unfold hostWrite
  split <;> simp_all

theorem writeEffect_status (s : State) (n : Nat) (v : Word) : writeEffect s 0x004 n v = s.writeStatus v := if_pos rfl

theorem writeEffect_ctrl (s : State) (n : Nat) (v : Word) : writeEffect s 0x010 n v = s.writeCtrl v := by
  simp [writeEffect]

theorem writeEffect_busy {s : State} {off n : Nat} (hb : s.busy = true) (hstatus : off ≠ 0x004) (hctrl : off ≠ 0x010)
    (v : Word) : writeEffect s off n v = s.setOvr := by
  rw [writeEffect, if_neg hstatus, if_neg hctrl, if_pos hb]

theorem writeEffect_inLen {s : State} (hb : s.busy = false) (n : Nat) (v : Word) :
    writeEffect s 0x014 n v = { s with inLen := v } := by
  simp [writeEffect, hb]

theorem writeEffect_ivLen {s : State} (hb : s.busy = false) (n : Nat) (v : Word) :
    writeEffect s 0x01C n v = { s with ivLen := v.extractLsb' 0 8 } := by
  simp [writeEffect, hb]

theorem writeEffect_buffer {s : State} {off n : Nat} (hb : s.busy = false) (hoff : 0x100 ≤ off) (v : Word) :
    writeEffect s off n v = s.setMem (hostWriteBytes s.inCap s.mem off (laneBytes v n)) := by
  rw [writeEffect, if_neg (by omega), if_neg (by omega), if_neg (by simp [hb]), if_neg (by omega), if_neg (by omega),
    if_neg (by omega)]

theorem hostAccess_write {s : State} {r : BusRequest} (hw : r.write = true) :
    hostAccess s r = hostWrite s r.off.toNat r.size r.wdata := if_pos hw

theorem hostAccess_read {s : State} {r : BusRequest} (hr : r.write = false) :
    hostAccess s r = hostRead s r.off.toNat r.size := if_neg (by simp [hr])

/-! ## The busy window, KEY and the bytes a write stores -/

/-- Settles O11: writes but to STATUS and CTRL set OVR, the four registers are read, and any other read draws. -/
theorem busyWindow : Obligations.BusyWindow := by
  intro s r hb hp
  have hregister {o : BitVec 18} (hr : r.write = false) (ho : r.off = o) (hread : BusyReadable o.toNat)
      (hpage : o.toNat < 0x100) : hostAccess s r = s.respond (.data (regWord s o.toNat)) := by
    subst ho
    rw [hostAccess_read hr, hostRead_register hp hpage (.inr hread)]
  refine ⟨fun hw hstatus hctrl => ?_, fun hr ho => hregister hr ho (by decide) (by decide),
    fun hr ho => hregister hr ho (by decide) (by decide), fun hr ho => hregister hr ho (by decide) (by decide),
    fun hr ho => hregister hr ho (by decide) (by decide), fun hr ho => ?_⟩
  · rw [hostAccess_write hw, hostWrite_of_permitted hp, writeEffect_busy hb (fun h => hstatus (BitVec.eq_of_toNat_eq h))
      (fun h => hctrl (BitVec.eq_of_toNat_eq h))]
    rfl
  · rw [hostAccess_read hr, hostRead_busy hp hb ho]
    refine ⟨_, rfl, fun k hk => ?_, fun k hk hk4 => ?_⟩
    · have hk4 : k < 4 := by rcases hp.1 with h | h | h <;> omega
      rw [laneByte_leWord _ hk4]
      simp [hk]
    · rw [laneByte_leWord _ hk4]
      simp [hk]

/-- Settles O24: KEY's bytes read 0, CKEY is on no read path, and a write's response tells nothing of the state. -/
theorem keyIsNotReadable : Obligations.KeyIsNotReadable := by
  intro s m k r hm
  have hvalue (off n : Nat) : readValue { s with mem := m, ckey := k } off n = readValue s off n := by
    have hbyte := hostByte_congr (s := s) (t := { s with mem := m, ckey := k }) rfl hm
    simp only [readValue, hbyte]
    rfl
  cases hw : r.write with
  | true => rw [hostAccess_write hw, hostAccess_write hw, hostWrite_resp, hostWrite_resp]
  | false =>
    rw [hostAccess_read hw, hostAccess_read hw, hostRead, hostRead, hvalue]
    have hbusy : State.busy { s with mem := m, ckey := k } = s.busy := rfl
    rw [hbusy]
    split
    · rfl
    · split <;> rfl

/-- Settles O60: the write lies where the host may write, so every lane is stored. -/
theorem writtenBytesAreStored : Obligations.WrittenBytesAreStored := by
  intro s r hb hw hp hbuf k hk
  have hoff : 0x100 ≤ r.off.toNat := by
    rcases hbuf with ⟨h, -⟩ | ⟨h, -⟩ <;> simp only [keyBase, inBase] at h <;> omega
  have hwritable : hostWritable s.inCap (r.off.toNat + k) = true := by
    rw [hostWritable_iff]
    rcases hbuf with ⟨hlo, hhi⟩ | ⟨hlo, hhi⟩
    · exact .inl ⟨by omega, by omega⟩
    · exact .inr ⟨by omega, by omega⟩
  rw [hostAccess_write hw, hostWrite_of_permitted hp, writeEffect_buffer hb hoff, State.respond_mem, State.setMem_mem,
    read_hostWriteBytes, length_laneBytes, if_pos ⟨by omega, by omega, hwritable⟩, Nat.add_sub_cancel_left,
    getD_laneBytes _ hk]

/-! ## CKEY (10_state R63) -/

theorem hostAccess_ckey (s : State) (r : BusRequest) : (hostAccess s r).ckey = s.ckey := by
  cases hw : r.write with
  | true =>
    rw [hostAccess_write hw]
    obtain ⟨-, heq⟩ | ⟨-, ⟨-, heq⟩ | ⟨-, heq⟩ | ⟨-, heq⟩ | ⟨-, -, heq⟩ | ⟨-, -, heq⟩ | ⟨-, -, heq⟩ | ⟨-, heq⟩⟩ :=
      hostWrite_cases s r.off.toNat r.size r.wdata <;> rw [heq] <;> rfl
  | false =>
    rw [hostAccess_read hw]
    obtain ⟨a, d, heq⟩ := hostRead_shape s r.off.toNat r.size
    rw [heq]

/-- A host step that changes CKEY takes a rise of rst. -/
theorem rstRise_of_hostStep_ckey {s : State} (h : (hostStep s).ckey ≠ s.ckey) : ∃ es, s.host = .rstRise :: es := by
  obtain ⟨-, heq⟩ | ⟨e, es, hhost, heq⟩ := hostStep_cases s <;> rw [heq] at h
  · exact absurd rfl h
  · cases e with
    | access r => exact absurd (hostAccess_ckey _ r) h
    | rstRise => exact ⟨es, hhost⟩
    | rstFall => exact absurd rfl h

/-- Settles O57: of the cases of a step, only a rise of rst and the completions of ZEROIZE and CONSTRUCT change CKEY. -/
theorem ckeyChangesOnlyByConstructZeroizeReset : Obligations.CkeyChangesOnlyByConstructZeroizeReset := by
  intro s t hstep hne
  obtain ⟨-, rfl | ⟨es, -, rfl⟩ | ⟨es, -, rfl⟩⟩ | ⟨-, -, rfl⟩ | ⟨-, w, k, hseq, rfl⟩ | ⟨-, w, i, hseq, hdec, hexec⟩ |
    ⟨-, w, e, -, -, rfl⟩ := step_cases hstep
  · exact absurd rfl hne
  · exact absurd rfl hne
  · exact absurd rfl hne
  · exact .inl (rstRise_of_hostStep_ckey hne)
  · exact .inl (rstRise_of_hostStep_ckey (s := { s with seq := .executing w k }) hne)
  · refine .inr ⟨w, hseq, ?_⟩
    by_contra hnot
    rw [not_or] at hnot
    obtain ⟨hz, hc⟩ := hnot
    refine hne ((completion_of_exec hexec).slotSame ?_ ?_).ckey
    · rintro rfl; exact hz hdec
    · rintro md p klen rfl; exact hc ⟨md, p, klen, hdec⟩
  · exact absurd rfl hne

/-! ## The registers (10_state R51 to R59, R80) -/

/-- ERR is 1 exactly where ERRCODE is not 0 (10_state R51, 60 R500). -/
theorem State.err_iff (s : State) : s.err = true ↔ s.errcodeWord ≠ 0 := by
  rw [State.err, State.errcodeWord, decide_eq_true_iff]
  cases s.errcode <;> decide

theorem getLsbD_append_ofBool {n : Nat} (x : BitVec n) (b : Bool) (k : Nat) :
    (x ++ BitVec.ofBool b).getLsbD k = if k = 0 then b else x.getLsbD (k - 1) := by
  rw [BitVec.getLsbD_append]
  cases k <;> simp

/-- The bits of STATUS (10_state R51). -/
theorem State.getLsbD_statusWord (s : State) (k : Nat) :
    s.statusWord.getLsbD k = [s.busy, s.done, s.err, s.ovr, s.cfgValid, s.rkValid].getD k false := by
  have h : s.statusWord.getLsbD k = (0#26 ++ BitVec.ofBool s.rkValid ++ BitVec.ofBool s.cfgValid ++ BitVec.ofBool s.ovr ++
    BitVec.ofBool s.err ++ BitVec.ofBool s.done ++ BitVec.ofBool s.busy).getLsbD k := rfl
  simp only [h, getLsbD_append_ofBool]
  rcases k with _ | _ | _ | _ | _ | _ | k <;> simp

/-- Write 1 to clear (10_state R51). -/
theorem and_not_eq_ite (d b : Bool) : (d && !b) = if b then false else d := by cases b <;> simp

/-- A permitted 4-byte write has its offset's effect and is acknowledged. -/
theorem hostAccess_writeRegister {s t : State} {o : BitVec 18} {v : Word} (hp : Permitted o.toNat 4)
    (ht : writeEffect s o.toNat 4 v = t) :
    hostAccess s { off := o, write := true, size := 4, wdata := v } = t.respond .ack := by
  rw [hostAccess_write rfl, hostWrite_of_permitted hp, ht]

/-- Settles O20: STATUS bit by bit, and write 1 to clear whether busy or not. -/
theorem statusRegister : Obligations.StatusRegister := by
  intro s
  refine ⟨s.getLsbD_statusWord 0, s.getLsbD_statusWord 1, by rw [s.getLsbD_statusWord 2]; exact s.err_iff,
    s.getLsbD_statusWord 3, s.getLsbD_statusWord 4, s.getLsbD_statusWord 5, fun k hk => ?_, fun v => ?_⟩
  · rw [s.getLsbD_statusWord]
    exact List.getD_eq_default _ _ hk
  · rw [hostAccess_writeRegister (by decide) (writeEffect_status s 4 v), State.writeStatus, and_not_eq_ite, and_not_eq_ite]
    rfl

/-- An idle 4-byte read of the register page answers its word. -/
theorem hostAccess_readRegister {s : State} (hb : s.busy = false) {o : BitVec 18} {w : Word} (hp : Permitted o.toNat 4)
    (ho : o.toNat < 0x100) (hw : regWord s o.toNat = w) :
    (hostAccess s { off := o, write := false, size := 4, wdata := 0 }).resp = some (.data w) := by
  rw [hostAccess_read rfl, hostRead_register hp ho (.inl hb), hw, State.respond_resp]

/-- A register word is the word of its number. -/
theorem eq_ofNat_of_toNat {w : Word} {n : Nat} (h : w.toNat = n) : w = BitVec.ofNat 32 n := by
  rw [← h, BitVec.ofNat_toNat, BitVec.setWidth_eq]

/-- Settles O21: each read is its register's word, whose number the fields give. -/
theorem registerReads : Obligations.RegisterReads := by
  intro s hb
  have hread {o : BitVec 18} {w : Word} := hostAccess_readRegister (s := s) hb (o := o) (w := w)
  exact ⟨hread (by decide) (by decide) rfl, hread (by decide) (by decide) rfl,
    hread (by decide) (by decide) (eq_ofNat_of_toNat s.cfgWord_toNat),
    hread (by decide) (by decide) (eq_ofNat_of_toNat s.ctrlWord_toNat), hread (by decide) (by decide) rfl,
    hread (by decide) (by decide) rfl, hread (by decide) (by decide) (eq_ofNat_of_toNat s.ivLenWord_toNat),
    hread (by decide) (by decide) (eq_ofNat_of_toNat s.rkInfoWord_toNat), hread (by decide) (by decide) rfl,
    hread (by decide) (by decide) rfl⟩

/-- Settles O22: the write's effect on the one register of its offset. -/
theorem writableRegisters : Obligations.WritableRegisters := by
  intro s v
  have hlow : v.extractLsb' 0 8 = BitVec.ofNat 8 (v.toNat % 256) := BitVec.eq_of_toNat_eq (by simp)
  refine ⟨hostAccess_writeRegister (o := 0x010) (by decide) (writeEffect_ctrl s 4 v),
    fun hb => ⟨hostAccess_writeRegister (o := 0x014) (by decide) (writeEffect_inLen hb 4 v), ?_⟩⟩
  rw [← hlow]
  exact hostAccess_writeRegister (o := 0x01C) (by decide) (writeEffect_ivLen hb 4 v)

/-- Settles O26: the registers are 0 and no byte is listed, so each reads as its draw. -/
theorem resetValues : Obligations.ResetValues := by
  refine ⟨by decide, by decide, by decide, by decide, rfl, rfl, rfl, by decide, rfl, rfl, rfl, rfl, rfl, fun _ => rfl,
    fun i hi => ?_⟩
  simp [State.ckeyByte, State.reset, drawnKey, hi]

end Sys2Proof.Machine

/-! PROOFS. The family 20_memory: what a host access reads, writes and leaves alone, idle and in the busy window, and the
step that takes it. -/

namespace Sys2Proof.Machine

/-! ## Steps that take the host's next event (20_memory R115) -/

theorem step_idle {s : State} (hrst : s.rst = false) (hseq : s.seq = .idle) : step s = .next (hostStep s) := by
  simp [step, hrst, hseq]

theorem step_countdown {s : State} {w : Word} {k : Nat} (hrst : s.rst = false) (hseq : s.seq = .executing w (k + 1)) :
    step s = .next (hostStep { s with seq := .executing w k }) := by
  simp [step, hrst, hseq]

theorem hostStep_of_nil {s : State} (h : s.host = []) : hostStep s = s := by simp [hostStep, h]

theorem hostStep_of_cons {s : State} {e : HostEvent} {es : List HostEvent} (h : s.host = e :: es) :
    hostStep s = hostEvent { s with host := es } e := by
  simp [hostStep, h]

/-- Settles O7: idle or counting down, a step is a host step. -/
theorem stepTakesNextHostEvent : Obligations.StepTakesNextHostEvent := by
  intro s hrst
  refine ⟨fun hseq hhost => ?_, fun e es hseq hhost => ?_, fun w k hseq hhost => ?_, fun w k e es hseq hhost => ?_⟩
  · rw [step_idle hrst hseq, hostStep_of_nil hhost]
  · rw [step_idle hrst hseq, hostStep_of_cons hhost]
  · exact (step_countdown hrst hseq).trans (congrArg _ (hostStep_of_nil hhost))
  · exact (step_countdown hrst hseq).trans (congrArg _ (hostStep_of_cons hhost))

/-! ## Accesses that are not permitted, and idle reads (20_memory R107, R110) -/

/-- A bus error answers and does nothing else (R107). -/
theorem hostAccess_busError {s : State} {r : BusRequest} (hp : ¬ Permitted r.off.toNat r.size) :
    hostAccess s r = s.respond .busError := by
  cases hw : r.write with
  | true => exact (hostAccess_write hw).trans (if_pos hp)
  | false => exact (hostAccess_read hw).trans (if_pos hp)

/-- Settles O13: the access is not permitted, so it answers the bus error alone. -/
theorem busErrorChangesNothing : Obligations.BusErrorChangesNothing := fun _ _ hp => hostAccess_busError hp

/-- A permitted read while idle is defined at every offset. -/
theorem hostRead_idle {s : State} {off n : Nat} (hb : s.busy = false) (hp : Permitted off n) :
    hostRead s off n = s.respond (.data (readValue s off n)) := by
  rw [hostRead, if_neg (not_not_intro hp), if_neg (by simp [hb])]

/-- Settles O14: a read answers, and only in the busy window draws. -/
theorem readsHaveNoSideEffect : Obligations.ReadsHaveNoSideEffect := by
  intro s r hr
  cases hb : s.busy with
  | true =>
    obtain ⟨a, d, heq⟩ := hostRead_shape s r.off.toNat r.size
    exact ⟨a, d, (hostAccess_read hr).trans heq, nofun⟩
  | false =>
    by_cases hp : Permitted r.off.toNat r.size
    · exact ⟨_, s.busyDraws, (hostAccess_read hr).trans (hostRead_idle hb hp), fun _ => rfl⟩
    · exact ⟨_, s.busyDraws, hostAccess_busError hp, fun _ => rfl⟩

/-! ## Host events in the busy window (20_memory R116, 10_state R85) -/

/-- While a command runs, an access moves at most DONE, OVR, IE, the response and the busy-window draws. -/
theorem hostAccess_busy_shape {s : State} (hb : s.busy = true) (r : BusRequest) : ∃ done ovr ie resp draws,
    hostAccess s r = { s with done := done, ovr := ovr, ie := ie, resp := resp, busyDraws := draws } := by
  cases hw : r.write with
  | false =>
    obtain ⟨a, d, heq⟩ := hostRead_shape s r.off.toNat r.size
    exact ⟨_, _, _, _, _, (hostAccess_read hw).trans heq⟩
  | true =>
    by_cases hp : Permitted r.off.toNat r.size
    · rw [hostAccess_write hw, hostWrite_of_permitted hp]
      by_cases hstatus : r.off.toNat = 0x004
      · rw [hstatus, writeEffect_status]
        exact ⟨_, _, _, _, _, rfl⟩
      · by_cases hctrl : r.off.toNat = 0x010
        · rw [hctrl, writeEffect_ctrl]
          exact ⟨_, _, _, _, _, rfl⟩
        · rw [writeEffect_busy hb hstatus hctrl]
          exact ⟨_, _, _, _, _, rfl⟩
    · rw [hostAccess_busError hp]
      exact ⟨_, _, _, _, _, rfl⟩

/-- While a command runs, a host step that is no reset moves at most what an access moves. -/
theorem hostStep_busy_shape {s : State} (hb : s.busy = true) (hreset : ∀ es, s.host ≠ .rstRise :: es) :
    ∃ done ovr ie host resp draws, hostStep s =
      { s with done := done, ovr := ovr, ie := ie, host := host, resp := resp, busyDraws := draws } := by
  obtain ⟨-, heq⟩ | ⟨e, es, hhost, heq⟩ := hostStep_cases s <;> rw [heq]
  · exact ⟨_, _, _, _, _, _, rfl⟩
  · cases e with
    | access r =>
      obtain ⟨d, o, i, a, n, hacc⟩ := hostAccess_busy_shape (s := { s with host := es }) hb r
      exact ⟨d, o, i, es, a, n, hacc⟩
    | rstRise => exact absurd hhost (hreset es)
    | rstFall => exact ⟨_, _, _, es, _, _, rfl⟩

/-- Settles O12: the step is a host step of the busy window, which moves no operand and no result. -/
theorem operandsHeldWhileBusy : Obligations.OperandsHeldWhileBusy := by
  intro s w k hrst hseq hreset
  obtain ⟨d, o, i, h, a, n, heq⟩ := hostStep_busy_shape (s := { s with seq := .executing w k }) rfl hreset
  rw [step_countdown hrst hseq, heq]
  exact ⟨_, rfl, rfl, fun _ => rfl, ⟨rfl, rfl, rfl, rfl, rfl⟩, ⟨rfl, rfl, rfl⟩, ⟨rfl, rfl⟩, rfl, rfl, rfl⟩

/-! ## Permitted accesses and the lanes of a word (20_memory R104, R106) -/

theorem size_le_of_permitted {off n : Nat} (hp : Permitted off n) : n ≤ 4 := by
  rcases hp.1 with rfl | rfl | rfl <;> decide

/-- An aligned access lies on one side of every 4-aligned boundary. -/
theorem add_size_le_of_permitted {off n c : Nat} (hp : Permitted off n) (hc : c % 4 = 0) (hlt : off < c) :
    off + n ≤ c := by
  obtain ⟨hsize, halign, -⟩ := hp
  rcases hsize with rfl | rfl | rfl <;> omega

/-- A word is the word of its four lanes. -/
theorem eq_of_laneByte {v w : Word} (h : ∀ k, k < 4 → laneByte v k = laneByte w k) : v = w := by
  ext i hi
  have hlane := congrArg (·.getLsbD (i % 8)) (h (i / 8) (by omega))
  have hbit : 8 * (i / 8) + i % 8 = i := Nat.div_add_mod i 8
  simpa [laneByte, Nat.mod_lt, hbit, hi] using hlane

theorem laneByte_zero (k : Nat) : laneByte 0 k = 0 := by simp [laneByte]

/-- The low `n` lanes of a word, zero-extended. -/
theorem laneByte_low (v : Word) (n k : Nat) :
    laneByte (BitVec.ofNat 32 (v.toNat % 2 ^ (8 * n))) k = if k < n then laneByte v k else 0 := by
  ext i hi
  have hlow : 8 * k + i < 8 * n ↔ k < n := by omega
  simp only [laneByte, BitVec.getElem_extractLsb', BitVec.getLsbD_ofNat, Nat.testBit_mod_two_pow, hlow]
  by_cases hk : k < n
  · have hword : v.toNat.testBit (8 * k + i) = v.getLsbD (8 * k + i) := rfl
    simpa [hk, hword] using BitVec.lt_of_getLsbD
  · simp [hk]

/-! ## What the host reads (20_memory R108, R110) -/

/-- A read beyond the register page has one byte a lane, and 0 in the lanes above. -/
theorem laneByte_readValue {s : State} {off : Nat} (hoff : 0x100 ≤ off) (n : Nat) {k : Nat} (hk : k < 4) :
    laneByte (readValue s off n) k = if k < n then hostByte s (off + k) else 0 := by
  rw [readValue, if_neg (by omega), laneByte_leWord _ hk]
  split
  · next hkn => simp [hkn]
  · next hkn => simp [hkn]

theorem readable_iff_regionOf (inCap x : Nat) : ReadableBuffer inCap x 1 ↔
    regionOf inCap x = .iv ∨ regionOf inCap x = .state ∨ regionOf inCap x = .chain ∨ regionOf inCap x = .rk ∨
      regionOf inCap x = .inBuf ∨ regionOf inCap x = .outBuf := by
  simp only [ReadableBuffer, ivBase, chainBase, rkBase, inBase, outBase, blockCap, rkCap]
  fun_cases regionOf inCap x <;> simp only [reduceCtorEq, or_true, or_false, or_self, iff_true, iff_false] <;> omega

/-- A byte of a readable buffer is read from the memory. -/
theorem hostByte_of_readable {s : State} {x : Nat} (h : ReadableBuffer s.inCap x 1) : hostByte s x = s.mem.read x := by
  rcases (readable_iff_regionOf _ _).mp h with hr | hr | hr | hr | hr | hr <;> simp only [hostByte, hr]

theorem ReadableBuffer.beyondRegisters {inCap off n : Nat} (h : ReadableBuffer inCap off n) : 0x100 ≤ off := by
  simp only [ReadableBuffer, ivBase, rkBase, inBase, outBase] at h
  omega

theorem ReadableBuffer.byte {inCap off n k : Nat} (h : ReadableBuffer inCap off n) (hk : k < n) :
    ReadableBuffer inCap (off + k) 1 := by
  unfold ReadableBuffer at *
  omega

theorem ReadWriteBuffer.readable {inCap off n : Nat} (h : ReadWriteBuffer inCap off n) : ReadableBuffer inCap off n := by
  simp only [ReadWriteBuffer, ReadableBuffer, stateBase, chainBase] at *
  omega

theorem ReadWriteBuffer.writable {inCap off n : Nat} (h : ReadWriteBuffer inCap off n) : WritableBuffer inCap off n := by
  simp only [ReadWriteBuffer, WritableBuffer, keyBase, ivBase] at *
  omega

/-- The offsets of the register page, of KEY and of the reserved ranges (R101, R108). -/
theorem regionOf_of_unreadable {inCap x : Nat}
    (h : x < 0x120 ∨ (0x180 ≤ x ∧ x < 0x200) ∨ (0x3E0 ≤ x ∧ x < 0x1000) ∨ (0x1820 ≤ x ∧ x < 0x10000) ∨
      (0x10000 + inCap ≤ x ∧ x < 0x20000) ∨ 0x20000 + (inCap + 32) ≤ x) :
    regionOf inCap x = .registers ∨ regionOf inCap x = .key ∨ regionOf inCap x = .reserved := by
  fun_cases regionOf inCap x <;> simp only [reduceCtorEq, or_true, true_or, or_self] <;> omega

/-- Their bytes read 0. -/
theorem hostByte_of_unreadable {s : State} {x : Nat}
    (h : regionOf s.inCap x = .registers ∨ regionOf s.inCap x = .key ∨ regionOf s.inCap x = .reserved) :
    hostByte s x = 0 := by
  rcases h with hr | hr | hr <;> simp only [hostByte, hr]

/-- Register-page offsets that hold no readable register read 0 (R108, 10_state R60). -/
theorem regWord_of_unreadable (s : State) {off : Nat} (h : off = 0 ∨ 0x02C ≤ off) : regWord s off = 0 := by
  fun_cases regWord s off
  case case11 => rfl
  all_goals omega

/-- Settles O18: the offset is a register-page offset that reads 0, or every byte of the access reads 0, since the ranges
end at 4-aligned offsets. -/
theorem unreadableReadsZero : Obligations.UnreadableReadsZero := by
  intro s r hb hr hp h
  have hrange : r.off.toNat = 0 ∨ _ := h.imp_left (congrArg BitVec.toNat)
  suffices hzero : readValue s r.off.toNat r.size = 0 by
    rw [hostAccess_read hr, hostRead_idle hb hp, hzero]
    rfl
  by_cases hpage : r.off.toNat < 0x100
  · rw [readValue, if_pos hpage, regWord_of_unreadable s (by omega)]
  · have hkey := add_size_le_of_permitted (c := 0x120) hp rfl
    have hbelowRk := add_size_le_of_permitted (c := 0x200) hp rfl
    have hbelowRom := add_size_le_of_permitted (c := 0x1000) hp rfl
    have hbelowIn := add_size_le_of_permitted (c := 0x10000) hp rfl
    have hbelowOut := add_size_le_of_permitted (c := 0x20000) hp rfl
    refine eq_of_laneByte fun k hk => ?_
    rw [laneByte_readValue (by omega) _ hk, laneByte_zero]
    exact ite_eq_right_iff.mpr fun hkn => hostByte_of_unreadable (regionOf_of_unreadable (by omega))

/-- Settles O19: each byte of the access is a byte of a readable buffer. -/
theorem bufferReadLanes : Obligations.BufferReadLanes := by
  intro s r hb hr hp _ hbuf
  have hlane {k : Nat} := laneByte_readValue (s := s) hbuf.beyondRegisters r.size (k := k)
  have hsize := size_le_of_permitted hp
  refine ⟨_, (hostAccess_read hr).trans (hostRead_idle hb hp), fun k hk => ?_, fun k hk hk4 => ?_⟩
  · rw [hlane (by omega), if_pos hk, hostByte_of_readable (hbuf.byte hk)]
  · rw [hlane hk4, if_neg (by omega)]

/-! ## What the host writes (20_memory R108, R111) -/

/-- A write while idle to no register of its own goes to the buffers byte by byte, where the host may write. -/
theorem writeEffect_memory {s : State} {off n : Nat} (hb : s.busy = false) (hcmd : off ≠ 0x000) (hstatus : off ≠ 0x004)
    (hctrl : off ≠ 0x010) (hinLen : off ≠ 0x014) (hivLen : off ≠ 0x01C) (v : Word) :
    writeEffect s off n v = s.setMem (hostWriteBytes s.inCap s.mem off (laneBytes v n)) := by
  rw [writeEffect, if_neg hstatus, if_neg hctrl, if_neg (by simp [hb]), if_neg hcmd, if_neg hinLen, if_neg hivLen]

/-- Bytes the host may not write are left alone. -/
theorem hostWriteBytes_of_not_writable {inCap off : Nat} {bs : Bytes} (m : Memory)
    (h : ∀ k, k < bs.length → ¬ hostWritable inCap (off + k) = true) : hostWriteBytes inCap m off bs = m := by
  induction bs generalizing off with
  | nil => rfl
  | cons b bs ih =>
    have hfirst : ¬ hostWritable inCap off = true := h 0 (Nat.succ_pos _)
    rw [hostWriteBytes, if_neg hfirst]
    refine ih fun k hk => ?_
    rw [Nat.add_right_comm]
    exact h (k + 1) (Nat.succ_lt_succ hk)

/-- Settles O16: the write is a bus error, or writes the bytes of its lanes into the memory and nothing else. -/
theorem hostWriteTouchesOnlyItsBytes : Obligations.HostWriteTouchesOnlyItsBytes := by
  intro s r hb hw hoff
  by_cases hp : Permitted r.off.toNat r.size
  · rw [hostAccess_write hw, hostWrite_of_permitted hp, writeEffect_buffer hb hoff]
    refine ⟨fun x hx => ?_, rfl⟩
    rw [State.respond_mem, State.setMem_mem, read_hostWriteBytes, length_laneBytes, if_neg (by omega)]
  · rw [hostAccess_busError hp]
    exact ⟨fun _ _ => rfl, rfl⟩

/-- Settles O17: no byte of the access may be written, since the ranges end at 4-aligned offsets. -/
theorem readOnlyIgnoresWrites : Obligations.ReadOnlyIgnoresWrites := by
  intro s r hb hw hp _ h
  have hoff {o : BitVec 18} (ho : r.off ≠ o) : r.off.toNat ≠ o.toNat := fun heq => ho (BitVec.eq_of_toNat_eq heq)
  have heffect : writeEffect s r.off.toNat r.size r.wdata =
      s.setMem (hostWriteBytes s.inCap s.mem r.off.toNat (laneBytes r.wdata r.size)) := by
    obtain ⟨-, hcmd, hstatus, hctrl, hinLen, hivLen⟩ | hbeyond := h
    · exact writeEffect_memory hb (hoff hcmd) (hoff hstatus) (hoff hctrl) (hoff hinLen) (hoff hivLen) _
    · exact writeEffect_buffer hb (by omega) _
  have hpage := add_size_le_of_permitted (c := 0x100) hp rfl
  have hbelowIn := add_size_le_of_permitted (c := 0x10000) hp rfl
  have hunwritable (k : Nat) (hk : k < r.size) : ¬ hostWritable s.inCap (r.off.toNat + k) = true := by
    rw [hostWritable_iff]
    simp only [keyBase, stateBase, blockCap, inBase]
    omega
  rw [hostAccess_write hw, hostWrite_of_permitted hp, heffect,
    hostWriteBytes_of_not_writable _ (by rwa [length_laneBytes])]
  rfl

/-- Settles O15: every lane is stored, and read back from the memory. -/
theorem writtenBytesReadBack : Obligations.WrittenBytesReadBack := by
  intro s off n v hb hp hlt _ hbuf
  obtain ⟨o, rfl⟩ : ∃ o : BitVec 18, o.toNat = off := ⟨BitVec.ofNat 18 off, Nat.mod_eq_of_lt hlt⟩
  have hoff := hbuf.readable.beyondRegisters
  have hstored := writtenBytesAreStored s ⟨o, true, n, v⟩ hb rfl hp hbuf.writable
  have ht : hostWrite s o.toNat n v = _ :=
    (hostWrite_of_permitted hp v).trans (congrArg (·.respond .ack) (writeEffect_buffer hb hoff v))
  have hidle : (hostWrite s o.toNat n v).busy = false := by rw [ht]; exact hb
  have hcap : (hostWrite s o.toNat n v).inCap = s.inCap := by rw [ht]; rfl
  rw [hostRead_idle hidle hp, State.respond_resp]
  refine congrArg (some <| Response.data ·) (eq_of_laneByte fun k hk => ?_)
  rw [laneByte_readValue hoff n hk, laneByte_low]
  split
  · next hkn =>
    rw [hostByte_of_readable (by rw [hcap]; exact hbuf.readable.byte hkn)]
    exact hstored k hkn
  · rfl

end Sys2Proof.Machine

/-! ## Command words (30_encoding)

Each format is settled once, on the numbers of its fields: what its decoder accepts (`decodeB_eq_ok`), and that the encoder
writes exactly the word with those fields (`encodeB_eq_iff`). The table of R158 is then walked row by row. -/

namespace Sys2Proof

/-- A field by division and remainder (R156). -/
theorem field_eq (w : Word) (lo n : Nat) : field w lo n = w.toNat / 2 ^ lo % 2 ^ n := by
  rw [field, BitVec.extractLsb'_toNat, Nat.shiftRight_eq_div_pow]

theorem Scheme.ofCode?_eq_some {c : Nat} {p : Scheme} : Scheme.ofCode? c = some p ↔ c = p.code.toNat := by
  fun_cases Scheme.ofCode? c
  case case6 h0 h1 h2 h3 h4 => cases p <;> simpa [Scheme.code]
  all_goals cases p <;> decide

/-- The codes of the schemes are 0 to 4 (R400). -/
theorem Scheme.exists_code {c : Nat} : (∃ p : Scheme, c = p.code.toNat) ↔ c ≤ 4 := by
  constructor
  · rintro ⟨p, rfl⟩
    cases p <;> decide
  · intro h
    interval_cases c
    exacts [⟨.zero, rfl⟩, ⟨.none, rfl⟩, ⟨.pkcs7, rfl⟩, ⟨.ansix923, rfl⟩, ⟨.iso10126, rfl⟩]

theorem Mode.ofBit_eq_iff {b : Nat} (hb : b < 2) {m : Mode} : Mode.ofBit b = m ↔ b = m.bit.toNat := by
  interval_cases b <;> cases m <;> decide

/-! What each format's decoder accepts. -/

theorem decodeN_eq_ok {w : Word} {i j : Instr} : decodeN w i = .ok j ↔ field w 8 24 = 0 ∧ i = j := by
  by_cases hz : field w 8 24 = 0 <;> simp [decodeN, hz]

theorem decodeB_eq_ok {w : Word} {mk : Nat → Instr} {i : Instr} :
    decodeB w mk = .ok i ↔ field w 16 16 = 0 ∧ mk (field w 8 8) = i := by
  by_cases hz : field w 16 16 = 0 <;> simp [decodeB, hz]

theorem decodeR_eq_ok {w : Word} {i : Instr} :
    decodeR w = .ok i ↔ field w 20 12 = 0 ∧ .addRoundKey (field w 8 8) (field w 16 4) = i := by
  by_cases hz : field w 20 12 = 0 <;> simp [decodeR, hz]

theorem decodeP_eq_ok {w : Word} {mk : Scheme → Nat → Instr} {i : Instr} :
    decodeP w mk = .ok i ↔
      field w 19 13 = 0 ∧ ∃ p : Scheme, field w 16 3 = p.code.toNat ∧ mk p (field w 8 8) = i := by
  simp only [← Scheme.ofCode?_eq_some]
  by_cases hz : field w 19 13 = 0
  · cases hp : Scheme.ofCode? (field w 16 3) <;> simp [decodeP, hz, hp]
  · simp [decodeP, hz]

theorem decodeK_eq_ok {w : Word} {i : Instr} :
    decodeK w = .ok i ↔ (field w 12 4 = 0 ∧ field w 24 8 = 0) ∧ ∃ (m : Mode) (p : Scheme),
      field w 8 1 = m.bit.toNat ∧ field w 9 3 = p.code.toNat ∧ .construct m p (field w 16 8) = i := by
  have hbit : field w 8 1 < 2 := BitVec.isLt _
  simp only [← Scheme.ofCode?_eq_some, ← Mode.ofBit_eq_iff hbit]
  by_cases hz : field w 12 4 = 0 ∧ field w 24 8 = 0
  · cases hp : Scheme.ofCode? (field w 9 3) <;> simp [decodeK, hz, hp]
  · simp [decodeK, hz]

/-! Which words that leaves legal in each format (R159). -/

theorem exists_decodeN {w : Word} {i : Instr} : (∃ j, decodeN w i = .ok j) ↔ field w 8 24 = 0 := by
  simp [decodeN_eq_ok]

theorem exists_decodeB {w : Word} {mk : Nat → Instr} : (∃ i, decodeB w mk = .ok i) ↔ field w 16 16 = 0 := by
  simp [decodeB_eq_ok]

theorem exists_decodeR {w : Word} : (∃ i, decodeR w = .ok i) ↔ field w 20 12 = 0 := by
  simp [decodeR_eq_ok]

theorem exists_decodeP {w : Word} {mk : Scheme → Nat → Instr} :
    (∃ i, decodeP w mk = .ok i) ↔ field w 19 13 = 0 ∧ field w 16 3 ≤ 4 := by
  simp [decodeP_eq_ok, ← Scheme.exists_code]

theorem exists_decodeK {w : Word} :
    (∃ i, decodeK w = .ok i) ↔ (field w 12 4 = 0 ∧ field w 24 8 = 0) ∧ field w 9 3 ≤ 4 := by
  have hbit : field w 8 1 < 2 := BitVec.isLt _
  simp [decodeK_eq_ok, ← Scheme.exists_code, ← Mode.ofBit_eq_iff hbit]

/-! The number of an encoded word, its fields at their places (R151 to R155). Each starts from the outermost append, whose
width is a sum where the word's is 32. -/

theorem toNat_append_eq_add {n m : Nat} (x : BitVec n) (y : BitVec m) :
    (x ++ y).toNat = x.toNat * 2 ^ m + y.toNat := by
  rw [BitVec.toNat_append, ← Nat.shiftLeft_add_eq_or_of_lt y.isLt, Nat.shiftLeft_eq]

theorem toNat_encodeN (op : Byte) : (encodeN op).toNat = op.toNat :=
  (toNat_append_eq_add (0 : BitVec 24) op).trans (by simp)

theorem toNat_encodeB (op : Byte) (bs : Nat) : (encodeB op bs).toNat = bs % 2 ^ 8 * 2 ^ 8 + op.toNat :=
  (toNat_append_eq_add ((0 : BitVec 16) ++ BitVec.ofNat 8 bs) op).trans (by simp only [toNat_append_eq_add]; simp)

theorem toNat_encodeR (op : Byte) (bs r : Nat) :
    (encodeR op bs r).toNat = (r % 2 ^ 4 * 2 ^ 8 + bs % 2 ^ 8) * 2 ^ 8 + op.toNat :=
  (toNat_append_eq_add ((0 : BitVec 12) ++ BitVec.ofNat 4 r ++ BitVec.ofNat 8 bs) op).trans
    (by simp only [toNat_append_eq_add]; simp)

theorem toNat_encodeP (op : Byte) (p : Scheme) (bs : Nat) :
    (encodeP op p bs).toNat = (p.code.toNat * 2 ^ 8 + bs % 2 ^ 8) * 2 ^ 8 + op.toNat :=
  (toNat_append_eq_add ((0 : BitVec 13) ++ p.code ++ BitVec.ofNat 8 bs) op).trans (by simp only [toNat_append_eq_add]; simp)

theorem toNat_encodeK (op : Byte) (m : Mode) (p : Scheme) (klen : Nat) : (encodeK op m p klen).toNat =
    ((klen % 2 ^ 8 * 2 ^ 4 * 2 ^ 3 + p.code.toNat) * 2 + m.bit.toNat) * 2 ^ 8 + op.toNat :=
  (toNat_append_eq_add ((0 : BitVec 8) ++ BitVec.ofNat 8 klen ++ (0 : BitVec 4) ++ p.code ++ m.bit) op).trans
    (by simp only [toNat_append_eq_add]; simp)

/-! An encoded word is the word with the opcode and the operands in its fields and 0 in the must-be-0 bits. -/

theorem encodeN_eq_iff {op : Byte} {w : Word} : encodeN op = w ↔ field w 0 8 = op.toNat ∧ field w 8 24 = 0 := by
  have hop := op.isLt
  have hw := w.isLt
  simp only [← BitVec.toNat_inj, toNat_encodeN, field_eq]
  omega

theorem encodeB_eq_iff {op : Byte} {bs : Nat} {w : Word} :
    bs < 256 ∧ encodeB op bs = w ↔ field w 0 8 = op.toNat ∧ field w 8 8 = bs ∧ field w 16 16 = 0 := by
  have hop := op.isLt
  have hw := w.isLt
  simp only [← BitVec.toNat_inj, toNat_encodeB, field_eq]
  omega

theorem encodeR_eq_iff {op : Byte} {bs r : Nat} {w : Word} : (bs < 256 ∧ r < 16) ∧ encodeR op bs r = w ↔
    field w 0 8 = op.toNat ∧ field w 8 8 = bs ∧ field w 16 4 = r ∧ field w 20 12 = 0 := by
  have hop := op.isLt
  have hw := w.isLt
  simp only [← BitVec.toNat_inj, toNat_encodeR, field_eq]
  omega

theorem encodeP_eq_iff {op : Byte} {p : Scheme} {bs : Nat} {w : Word} : bs < 256 ∧ encodeP op p bs = w ↔
    field w 0 8 = op.toNat ∧ field w 8 8 = bs ∧ field w 16 3 = p.code.toNat ∧ field w 19 13 = 0 := by
  have hop := op.isLt
  have hw := w.isLt
  have hp := p.code.isLt
  simp only [← BitVec.toNat_inj, toNat_encodeP, field_eq]
  omega

theorem encodeK_eq_iff {op : Byte} {m : Mode} {p : Scheme} {klen : Nat} {w : Word} :
    klen < 256 ∧ encodeK op m p klen = w ↔ field w 0 8 = op.toNat ∧ field w 8 1 = m.bit.toNat ∧
      field w 9 3 = p.code.toNat ∧ field w 12 4 = 0 ∧ field w 16 8 = klen ∧ field w 24 8 = 0 := by
  have hop := op.isLt
  have hw := w.isLt
  have hm := m.bit.isLt
  have hp := p.code.isLt
  simp only [← BitVec.toNat_inj, toNat_encodeK, field_eq]
  omega

/-- A word that decodes is the word of the command it decodes to, whose fields fit. -/
theorem encode_of_decode {w : Word} {i : Instr} : decode w = .ok i → i.WellFormed ∧ encode i = w := by
  fun_cases decode w <;> intro h
  case case1 hop | case3 hop =>
    -- format N
    obtain ⟨hz, rfl⟩ := decodeN_eq_ok.mp h
    exact ⟨rfl, encodeN_eq_iff.mpr ⟨hop, hz⟩⟩
  case case2 hop =>
    -- format K
    obtain ⟨⟨hlo, hhi⟩, m, p, hm, hp, rfl⟩ := decodeK_eq_ok.mp h
    exact And.imp_left decide_eq_true (encodeK_eq_iff.mpr ⟨hop, hm, hp, hlo, rfl, hhi⟩)
  case case13 hop =>
    -- format R
    obtain ⟨hz, rfl⟩ := decodeR_eq_ok.mp h
    obtain ⟨⟨hbs, hr⟩, hw⟩ := (encodeR_eq_iff (op := 0x26)).mpr ⟨hop, rfl, rfl, hz⟩
    exact ⟨Bool.and_eq_true_iff.mpr ⟨decide_eq_true hbs, decide_eq_true hr⟩, hw⟩
  case case16 hop | case17 hop =>
    -- format P
    obtain ⟨hz, p, hp, rfl⟩ := decodeP_eq_ok.mp h
    exact And.imp_left decide_eq_true (encodeP_eq_iff.mpr ⟨hop, rfl, hp, hz⟩)
  case case18 =>
    -- an unassigned opcode
    cases h
  case case4 hop | case5 hop | case6 hop | case7 hop | case8 hop | case9 hop | case10 hop | case11 hop | case12 hop |
      case14 hop | case15 hop =>
    -- format B
    obtain ⟨hz, rfl⟩ := decodeB_eq_ok.mp h
    exact And.imp_left decide_eq_true (encodeB_eq_iff.mpr ⟨hop, rfl, hz⟩)

/-- The decoder reads the command back from its word. -/
theorem decode_encode {i : Instr} (h : i.WellFormed) : decode (encode i) = .ok i := by
  cases i with
  | nop | zeroize =>
    obtain ⟨hop, hz⟩ := encodeN_eq_iff.mp rfl
    rw [decode, encode, hop]
    exact decodeN_eq_ok.mpr ⟨hz, rfl⟩
  | construct m p klen =>
    obtain ⟨hop, hm, hp, hlo, hk, hhi⟩ := encodeK_eq_iff.mp ⟨of_decide_eq_true h, rfl⟩
    rw [decode, encode, hop]
    exact decodeK_eq_ok.mpr ⟨⟨hlo, hhi⟩, m, p, hm, hp, congrArg _ hk⟩
  | addRoundKey bs r =>
    obtain ⟨hwbs, hwr⟩ := Bool.and_eq_true_iff.mp h
    obtain ⟨hop, hbs, hr, hz⟩ := encodeR_eq_iff.mp ⟨⟨of_decide_eq_true hwbs, of_decide_eq_true hwr⟩, rfl⟩
    rw [decode, encode, hop]
    exact decodeR_eq_ok.mpr ⟨hz, congrArg₂ _ hbs hr⟩
  | pad p bs | unpad p bs =>
    obtain ⟨hop, hbs, hp, hz⟩ := encodeP_eq_iff.mp ⟨of_decide_eq_true h, rfl⟩
    rw [decode, encode, hop]
    exact decodeP_eq_ok.mpr ⟨hz, p, hp, congrArg _ hbs⟩
  | _ bs =>
    obtain ⟨hop, hbs, hz⟩ := encodeB_eq_iff.mp ⟨of_decide_eq_true h, rfl⟩
    rw [decode, encode, hop]
    exact decodeB_eq_ok.mpr ⟨hz, congrArg _ hbs⟩

/-- The low byte of a command's word is its opcode (R150, R158). -/
theorem field_opcode_encode (i : Instr) : field (encode i) 0 8 = i.opcode.toNat := by
  cases i with
  | nop | zeroize => rfl
  | construct m p klen => rw [field_eq, encode, toNat_encodeK, Instr.opcode]; omega
  | addRoundKey bs r => rw [field_eq, encode, toNat_encodeR, Instr.opcode]; omega
  | pad p bs | unpad p bs => rw [field_eq, encode, toNat_encodeP, Instr.opcode]; omega
  | _ bs => rw [field_eq, encode, toNat_encodeB, Instr.opcode]; omega

/-- Settles O1: row by row, the decoder finds the encoder's fields. -/
theorem decodeOfEncodeIsIdentity : Obligations.DecodeOfEncodeIsIdentity :=
  fun _ h => decode_encode h

/-- Settles O2: row by row, the accepted fields and the must-be-0 bits make up the whole word. -/
theorem encodeOfDecodeIsIdentity : Obligations.EncodeOfDecodeIsIdentity :=
  fun _ _ h => encode_of_decode h

/-- Settles O3: row by row by the legal words of the format; the opcode is the low byte of the word O2 gives back. -/
theorem decodeLegalExactlyByFormat : Obligations.DecodeLegalExactlyByFormat := by
  intro w
  have hw := w.isLt
  constructor
  · fun_cases decode w
    case case18 =>
      -- an unassigned opcode
      simp only [reduceCtorEq, exists_false, false_iff, imp_false, field_eq] at *
      omega
    all_goals
      simp only [exists_decodeN, exists_decodeK, exists_decodeB, exists_decodeR, exists_decodeP, field_eq] at *
      omega
  · intro i h
    obtain ⟨-, rfl⟩ := encode_of_decode h
    have hop := field_opcode_encode i
    rw [field_eq] at hop
    omega

/-- Settles O4: the decoder runs on each word. -/
theorem specWordsDecode : Obligations.SpecWordsDecode := by
  unfold Obligations.SpecWordsDecode
  decide

end Sys2Proof

/-! PROOFS. The family 40_rom_tables: ROM as the host reads it, the two substitution tables as inverses of each other, and the
tables as values of the field GF(2^8). -/

namespace Sys2Proof.Machine

/-! ## ROM as the host reads it (20_memory R104, R110, 40 R210) -/

theorem regionOf_rom {inCap k : Nat} (hk : k < 2080) : regionOf inCap (romBase + k) = .rom := by
  rw [romBase]
  fun_cases regionOf inCap (0x1000 + k)
  case case9 => rfl
  all_goals omega

theorem hostByte_rom (s : State) {k : Nat} (hk : k < 2080) : hostByte s (romBase + k) = romByte k := by
  simp only [hostByte, regionOf_rom hk, Nat.add_sub_cancel_left]

/-- A word of one byte is the byte, zero-extended. -/
theorem leWord_singleton (b : Byte) : leWord [b] = b.setWidth 32 := by simp [leWord]

theorem permitted_one {off : Nat} (hoff : 0x100 ≤ off) : Permitted off 1 :=
  ⟨.inl rfl, Nat.mod_one off, fun hlt => absurd hlt (Nat.not_lt.mpr hoff)⟩

theorem readValue_one {s : State} {off : Nat} (hoff : 0x100 ≤ off) :
    readValue s off 1 = (hostByte s off).setWidth 32 := by
  rw [readValue, if_neg (Nat.not_lt.mpr hoff), List.range_one, List.map_singleton, leWord_singleton, Nat.add_zero]

/-- An idle one-byte read beyond the register page answers the byte there. -/
theorem hostAccess_readByte {s : State} (hb : s.busy = false) {o : Nat} (ho : o < 2 ^ 18) (hoff : 0x100 ≤ o) :
    (hostAccess s { off := BitVec.ofNat 18 o, write := false, size := 1, wdata := 0 }).resp =
      some (.data ((hostByte s o).setWidth 32)) := by
  rw [hostAccess_read rfl, BitVec.toNat_ofNat, Nat.mod_eq_of_lt ho, hostRead_idle hb (permitted_one hoff),
    State.respond_resp, readValue_one hoff]

/-- An idle one-byte read of ROM answers the ROM byte. -/
theorem hostAccess_readRom {s : State} (hb : s.busy = false) {k : Nat} (hk : k < 2080) :
    (hostAccess s { off := BitVec.ofNat 18 (romBase + k), write := false, size := 1, wdata := 0 }).resp =
      some (.data ((romByte k).setWidth 32)) := by
  rw [hostAccess_readByte hb (by rw [romBase]; omega) (by rw [romBase]; omega), hostByte_rom s hk]

/-- The layout of R210: the eight tables, 256 bytes each, then rcon. -/
theorem romByte_tables (x : Byte) :
    romByte (256 * 0 + x.toNat) = sbox x ∧ romByte (256 * 1 + x.toNat) = invSbox x ∧
    romByte (256 * 2 + x.toNat) = gfMul2 x ∧ romByte (256 * 3 + x.toNat) = gfMul3 x ∧
    romByte (256 * 4 + x.toNat) = gfMul9 x ∧ romByte (256 * 5 + x.toNat) = gfMul11 x ∧
    romByte (256 * 6 + x.toNat) = gfMul13 x ∧ romByte (256 * 7 + x.toNat) = gfMul14 x := by
  have hdiv (t : Nat) : (256 * t + x.toNat) / 256 = t := by omega
  have hmod (t : Nat) : (256 * t + x.toNat) % 256 = x.toNat := by omega
  simp only [romByte, hdiv, hmod]
  exact ⟨rfl, rfl, rfl, rfl, rfl, rfl, rfl, rfl⟩

theorem romByte_rcon {j : Nat} (hj : j < 256) : romByte (256 * 8 + j) = rcon j := by
  have hdiv : (256 * 8 + j) / 256 = 8 := by omega
  have hmod : (256 * 8 + j) % 256 = j := by omega
  simp only [romByte, hdiv, hmod, rcon]

/-- Settles O23: a byte of ROM is read at its offset by R210's layout, a wider read has one ROM byte a lane. -/
theorem romReadsTables : Obligations.RomReadsTables := by
  intro s x j hb read byte
  have hread {k : Nat} (hk : k < 2080) : read (romBase + k) = byte (romByte k) := hostAccess_readRom hb hk
  have htable (t : Nat) {b : Byte} (hbyte : romByte (256 * t + x.toNat) = b) (ht : t < 8) :
      read (romBase + 256 * t + x.toNat) = byte b := by
    rw [Nat.add_assoc, hread (by omega), hbyte]
  have hrcon {i : Nat} (hi : i < 32) : read (0x1800 + i) = byte (rcon i) := by
    rw [← romByte_rcon (by omega), ← hread (by omega), ← Nat.add_assoc, romBase]
  obtain ⟨h0, h1, h2, h3, h4, h5, h6, h7⟩ := romByte_tables x
  refine ⟨htable 0 h0 (by decide), htable 1 h1 (by decide), htable 2 h2 (by decide), htable 3 h3 (by decide),
    htable 4 h4 (by decide), htable 5 h5 (by decide), htable 6 h6 (by decide), htable 7 h7 (by decide),
    fun _ hj => hrcon (by omega), hrcon (i := 0) (by decide), hrcon (i := 31) (by decide), fun r hr hp hlo hhi => ?_⟩
  have hoff : 0x100 ≤ r.off.toNat := le_trans (by decide) hlo
  have hlane {k : Nat} (hk : k < 4) := laneByte_readValue (s := s) hoff r.size hk
  have hsize := size_le_of_permitted hp
  have hbound : r.off.toNat + r.size < 2 ^ 18 := lt_of_le_of_lt hhi (by decide)
  refine ⟨_, (hostAccess_read hr).trans (hostRead_idle hb hp), fun k hk => ?_, fun k hk hk4 => ?_⟩
  · rw [hlane (by omega), if_pos hk]
    exact hostAccess_readByte hb (by omega) (by omega)
  · rw [hlane hk4, if_neg (by omega)]

/-! ## The substitution tables (40 R203) -/

theorem invSbox_sbox (x : Byte) : invSbox (sbox x) = x := by decide +revert

/-- On the finite set of bytes a left inverse is a right inverse. -/
theorem sbox_invSbox (x : Byte) : sbox (invSbox x) = x :=
  Function.LeftInverse.rightInverse_of_card_le invSbox_sbox le_rfl x

/-- Settles O28: the one order is read off the tables, the other follows since there are finitely many bytes. -/
theorem sboxInverse : Obligations.SboxInverse := ⟨invSbox_sbox, sbox_invSbox⟩

/-! ## The tables as products and doublings (40 R204, R205) -/

theorem gfMul2_eq_gfMul (x : Byte) : gfMul2 x = gfMul 2 x := by decide +revert
theorem gfMul3_eq_gfMul (x : Byte) : gfMul3 x = gfMul 3 x := by decide +revert
theorem gfMul9_eq_gfMul (x : Byte) : gfMul9 x = gfMul 9 x := by decide +revert
theorem gfMul11_eq_gfMul (x : Byte) : gfMul11 x = gfMul 11 x := by decide +revert
theorem gfMul13_eq_gfMul (x : Byte) : gfMul13 x = gfMul 13 x := by decide +revert
theorem gfMul14_eq_gfMul (x : Byte) : gfMul14 x = gfMul 14 x := by decide +revert

theorem rcon_succ {j : Nat} (h1 : 1 ≤ j) (h30 : j < 30) : rcon (j + 1) = xtime (rcon j) := by
  interval_cases j <;> rfl

/-- Settles O30: every entry of the tables is compared with the field's value. -/
theorem tablesAreFieldValues : Obligations.TablesAreFieldValues :=
  ⟨fun x => ⟨gfMul2_eq_gfMul x, gfMul3_eq_gfMul x, gfMul9_eq_gfMul x, gfMul11_eq_gfMul x, gfMul13_eq_gfMul x,
    gfMul14_eq_gfMul x⟩, rfl, fun _ => rcon_succ⟩

/-! ## The field's product (40 R200, R201)

`gfMul a b` adds up doublings of `a`, so a map that respects the sum can be taken inside it. That makes the product additive in
its left factor and lets two right factors change places, which is all the uniqueness of inverses needs. -/

theorem xtime_xor (a b : Byte) : xtime (a ^^^ b) = xtime a ^^^ xtime b := by
  have hcarry : (if (a ^^^ b).getLsbD 7 then 0x1B else 0x00) =
      (if a.getLsbD 7 then 0x1B else 0x00) ^^^ (if b.getLsbD 7 then (0x1B : Byte) else 0x00) := by
    rw [BitVec.getLsbD_xor]
    cases a.getLsbD 7 <;> cases b.getLsbD 7 <;> rfl
  simp only [xtime, hcarry, BitVec.shiftLeft_xor_distrib]
  ac_rfl

theorem xtimes_xor (i : Nat) (a b : Byte) : xtimes i (a ^^^ b) = xtimes i a ^^^ xtimes i b := by
  induction i with
  | zero => rfl
  | succ i ih => simp only [xtimes, ih, xtime_xor]

theorem xtimes_xtimes_comm (i j : Nat) (a : Byte) : xtimes i (xtimes j a) = xtimes j (xtimes i a) := by
  have hadd (m n : Nat) : xtimes m (xtimes n a) = xtimes (m + n) a := by
    induction m with
    | zero => rw [Nat.zero_add, xtimes]
    | succ m ih => rw [Nat.succ_add, xtimes, xtimes, ih]
  rw [hadd, hadd, Nat.add_comm]

theorem gfMul_xor_left (a a' b : Byte) : gfMul (a ^^^ a') b = gfMul a b ^^^ gfMul a' b := by
  unfold gfMul
  conv_lhs => rw [← BitVec.xor_zero (x := (0 : Byte))]
  refine List.foldl_hom₂ _ (· ^^^ ·) _ _ _ 0 0 fun u v i => ?_
  cases b.getLsbD i with
  | false => rfl
  | true =>
    simp only [if_true, xtimes_xor]
    ac_rfl

/-- An additive map goes into the sum of a product. -/
theorem map_gfMul {f : Byte → Byte} (hf : ∀ u v, f (u ^^^ v) = f u ^^^ f v) (a b : Byte) :
    f (gfMul a b) = (List.range 8).foldl (fun acc i => if b.getLsbD i then acc ^^^ f (xtimes i a) else acc) 0 := by
  have hzero : f 0 = 0 := by simpa using hf 0 0
  conv_rhs => rw [← hzero]
  refine (List.foldl_hom f fun u i => ?_).symm
  rw [apply_ite f, hf]

theorem gfMul_xtimes_left (i : Nat) (a b : Byte) : gfMul (xtimes i a) b = xtimes i (gfMul a b) := by
  simp only [map_gfMul (xtimes_xor i) a b, xtimes_xtimes_comm i _ a]
  rfl

theorem gfMul_right_comm (a b c : Byte) : gfMul (gfMul a b) c = gfMul (gfMul a c) b := by
  rw [map_gfMul (f := (gfMul · c)) (gfMul_xor_left · · c)]
  simp only [gfMul_xtimes_left]
  rfl

theorem one_gfMul (x : Byte) : gfMul 1 x = x := by decide +revert

/-- Inverses in the field are unique. -/
theorem eq_of_gfMul_eq_one {x y z : Byte} (hy : gfMul x y = 1) (hz : gfMul x z = 1) : y = z :=
  calc y = gfMul (gfMul x z) y := by rw [hz, one_gfMul]
    _ = gfMul (gfMul x y) z := gfMul_right_comm x z y
    _ = z := by rw [hy, one_gfMul]

/-! ## sbox as the affine map of the inverse (40 R202) -/

/-- The inverse of the affine map: it takes sbox(x) back to the inverse of x. -/
def unaffine (b : Byte) : Byte := b.rotateLeft 1 ^^^ b.rotateLeft 3 ^^^ b.rotateLeft 6 ^^^ 0x05

theorem affine_unaffine (b : Byte) : affine (unaffine b) = b := by decide +revert

theorem gfMul_unaffine_sbox (x : Byte) (hx : x ≠ 0) : gfMul x (unaffine (sbox x)) = 1 := by decide +revert

/-- Settles O29: the inverse of x is read off sbox(x), and there is no other. -/
theorem sboxIsAffineOfInverse : Obligations.SboxIsAffineOfInverse := by
  refine ⟨rfl, fun x hx => ⟨⟨_, gfMul_unaffine_sbox x hx⟩, fun y hy => ?_⟩⟩
  rw [eq_of_gfMul_eq_one hy (gfMul_unaffine_sbox x hx), affine_unaffine]

end Sys2Proof.Machine

/-! PROOFS. The family 41_key_schedule: the recurrence of the schedule word by word, its length, and KEY_EXPAND. -/

namespace Sys2Proof.Machine

/-! ## Round counts and lengths (41 R250, R251) -/

/-- RoundCountTable in closed form (41 R250). -/
theorem roundCount_eq {ks bs : Nat} (hks : LegalSize ks) (hbs : LegalSize bs) : roundCount ks bs = max ks bs / 4 + 6 := by
  rcases hks with rfl | rfl | rfl <;> rcases hbs with rfl | rfl | rfl <;> rfl

theorem LegalSize.mod_four {n : Nat} (h : LegalSize n) : n % 4 = 0 := by
  rcases h with rfl | rfl | rfl <;> rfl

theorem LegalSize.sixteen_le {n : Nat} (h : LegalSize n) : 16 ≤ n := by
  rcases h with rfl | rfl | rfl <;> decide

theorem length_expand_le {key : Bytes} {bs : Nat} (hk : LegalSize key.length) (hbs : LegalSize bs) :
    (expand key bs).length ≤ 480 :=
  (length_expand hk hbs).trans_le (scheduleLength_le hbs)

theorem length_expand_mod_four {key : Bytes} {bs : Nat} (hk : LegalSize key.length) (hbs : LegalSize bs) :
    (expand key bs).length % 4 = 0 := by
  rw [length_expand hk hbs, scheduleLength, Nat.mul_mod, hbs.mod_four, Nat.zero_mul, Nat.zero_mod]

/-- Settles O31: the table's nine pairs, and the length the loop gives. -/
theorem scheduleLengths : Obligations.ScheduleLengths := fun _ _ hk hbs =>
  ⟨roundCount_eq hk hbs, length_expand hk hbs, length_expand_mod_four hk hbs, length_expand_le hk hbs⟩

/-! ## The recurrence (41 R252 to R254, R262)

The loop only appends, so what it reads and what it appends stand unchanged in the finished schedule. -/

/-- The four bytes from `off` up, as the loop of R252 reads them. -/
def wordAt (w : Bytes) (off : Nat) : Bytes := (w.drop off).take 4

theorem wordAt_eq {w : Bytes} {off : Nat} (h : off + 4 ≤ w.length) :
    wordAt w off = [w.getD off 0, w.getD (off + 1) 0, w.getD (off + 2) 0, w.getD (off + 3) 0] := by
  rw [List.getD_eq_getElem _ _ (by omega), List.getD_eq_getElem _ _ (by omega), List.getD_eq_getElem _ _ (by omega),
    List.getD_eq_getElem _ _ (by omega), wordAt, List.drop_eq_getElem_cons (by omega),
    List.drop_eq_getElem_cons (by omega), List.drop_eq_getElem_cons (by omega), List.drop_eq_getElem_cons (by omega)]
  rfl

theorem length_wordAt {w : Bytes} {off : Nat} (h : off + 4 ≤ w.length) : (wordAt w off).length = 4 := by
  rw [wordAt_eq h]; rfl

theorem wordAt_of_prefix {u w : Bytes} {off : Nat} (hu : u <+: w) (h : off + 4 ≤ u.length) : wordAt w off = wordAt u off := by
  obtain ⟨v, rfl⟩ := hu
  rw [wordAt, List.drop_append_of_le_length (by omega), List.take_append_of_le_length (by simp; omega), wordAt]

theorem wordAt_append_length {u v : Bytes} (h : v.length = 4) : wordAt (u ++ v) u.length = v := by
  rw [wordAt, List.drop_left, ← h, List.take_length]

/-- The word the loop of R252 appends to the bytes `w`. -/
def nextWord (ks step : Nat) (w : Bytes) : Bytes :=
  xorBytes (wordAt w (w.length - ks)) (scheduleWord ks w.length step (wordAt w (w.length - 4)))

theorem expandLoop_succ (ks n step : Nat) (w : Bytes) :
    expandLoop ks (n + 1) step w =
      expandLoop ks n (if w.length % ks = 0 then step + 1 else step) (w ++ nextWord ks step w) := rfl

theorem length_nextWord {ks : Nat} (hks : 4 ≤ ks) (step : Nat) {w : Bytes} (hw : ks ≤ w.length) :
    (nextWord ks step w).length = 4 := by
  rw [nextWord, length_xorBytes, length_scheduleWord, length_wordAt (by omega), length_wordAt (by omega), Nat.min_self]

theorem prefix_expandLoop (ks n step : Nat) (w : Bytes) : w <+: expandLoop ks n step w := by
  induction n generalizing step w with
  | zero => exact List.prefix_rfl
  | succ n ih => exact (List.prefix_append _ _).trans (ih _ _)

/-- The step counter starts at 1, after the one key the schedule starts with (41 R254). -/
theorem stepCount_start {ks : Nat} (hks : LegalSize ks) : 1 = (ks + ks - 1) / ks := by
  rcases hks with rfl | rfl | rfl <;> rfl

/-- The step counter is the number of key sizes up to the next offset, rounded up; a word moves it on exactly after a
multiple of the key size (41 R254). -/
theorem stepCount_add_four {ks off : Nat} (hks : LegalSize ks) (hoff : off % 4 = 0) :
    (if off % ks = 0 then (off + ks - 1) / ks + 1 else (off + ks - 1) / ks) = (off + 4 + ks - 1) / ks := by
  rcases hks with rfl | rfl | rfl <;> split <;> omega

/-- At a multiple of the key size the step counter is the quotient, the index of R252's round constant. -/
theorem stepCount_of_mod_eq_zero {ks off : Nat} (hks : LegalSize ks) (hoff : off % ks = 0) :
    (off + ks - 1) / ks = off / ks := by
  rcases hks with rfl | rfl | rfl <;> omega

/-- Every word the loop appends obeys the recurrence within the finished schedule. -/
theorem wordAt_expandLoop {ks : Nat} (hks : LegalSize ks) (n : Nat) {step off : Nat} {w : Bytes} (hw : ks ≤ w.length)
    (hw4 : w.length % 4 = 0) (hstep : step = (w.length + ks - 1) / ks) (hoff4 : off % 4 = 0) (hlo : w.length ≤ off)
    (hhi : off < (expandLoop ks n step w).length) :
    wordAt (expandLoop ks n step w) off =
      xorBytes (wordAt (expandLoop ks n step w) (off - ks))
        (scheduleWord ks off ((off + ks - 1) / ks) (wordAt (expandLoop ks n step w) (off - 4))) := by
  have h4 : 4 ≤ ks := le_trans (by decide) hks.sixteen_le
  induction n generalizing step w with
  | zero => exact absurd hhi (not_lt.mpr hlo)
  | succ n ih =>
    have hnext : (nextWord ks step w).length = 4 := length_nextWord h4 step hw
    have hlen : (w ++ nextWord ks step w).length = w.length + 4 := by rw [List.length_append, hnext]
    rcases hlo.eq_or_lt with rfl | hlt
    · have hold : w <+: expandLoop ks (n + 1) step w := prefix_expandLoop _ _ _ _
      rw [wordAt_of_prefix hold (by omega : w.length - ks + 4 ≤ w.length),
        wordAt_of_prefix hold (by omega : w.length - 4 + 4 ≤ w.length), ← hstep, expandLoop_succ,
        wordAt_of_prefix (prefix_expandLoop _ _ _ _) hlen.ge, wordAt_append_length hnext, nextWord]
    · rw [expandLoop_succ] at hhi ⊢
      exact ih (by omega) (by omega) (by rw [hlen, hstep, stepCount_add_four hks hw4]) (by omega) hhi

theorem prefix_expand (key : Bytes) (bs : Nat) : key <+: expand key bs := prefix_expandLoop _ _ _ _

theorem wordAt_expand {key : Bytes} {bs off : Nat} (hk : LegalSize key.length) (hoff4 : off % 4 = 0)
    (hlo : key.length ≤ off) (hhi : off < (expand key bs).length) :
    wordAt (expand key bs) off =
      xorBytes (wordAt (expand key bs) (off - key.length))
        (scheduleWord key.length off ((off + key.length - 1) / key.length) (wordAt (expand key bs) (off - 4))) :=
  wordAt_expandLoop hk _ le_rfl hk.mod_four (stepCount_start hk) hoff4 hlo hhi

/-- At a multiple of the key size the previous word is rotated, substituted and given the round constant (41 R253). -/
theorem scheduleWord_rotated {ks off : Nat} (h : off % ks = 0) (step : Nat) (a b c d : Byte) :
    scheduleWord ks off step [a, b, c, d] = [sbox b ^^^ rcon step, sbox c, sbox d, sbox a] := if_pos h

/-- At offset 16 of a 32-byte key's block it is substituted. -/
theorem scheduleWord_substituted {ks off : Nat} (h : ks = 32 ∧ off % ks = 16) (step : Nat) (t : Bytes) :
    scheduleWord ks off step t = t.map sbox := by
  rw [scheduleWord, if_neg (by omega), if_pos h]

/-- Elsewhere it is taken as it is. -/
theorem scheduleWord_plain {ks off : Nat} (h0 : off % ks ≠ 0) (h16 : ¬ (ks = 32 ∧ off % ks = 16)) (step : Nat) (t : Bytes) :
    scheduleWord ks off step t = t := by
  rw [scheduleWord, if_neg h0, if_neg h16]

/-- Two words of four bytes are xored byte by byte. -/
theorem word_eq_xorBytes_iff {x0 x1 x2 x3 a0 a1 a2 a3 b0 b1 b2 b3 : Byte} :
    [x0, x1, x2, x3] = xorBytes [a0, a1, a2, a3] [b0, b1, b2, b3] ↔
      x0 = a0 ^^^ b0 ∧ x1 = a1 ^^^ b1 ∧ x2 = a2 ^^^ b2 ∧ x3 = a3 ^^^ b3 := by
  simp [xorBytes]

/-- Settles O32: the recurrence of the loop, with the previous word as each of the three cases of R252 takes it. -/
theorem expandRecurrence : Obligations.ExpandRecurrence := by
  intro key bs hk hbs w ks
  have hks : 16 ≤ ks := hk.sixteen_le
  have hmod := length_expand_mod_four hk hbs
  have hlen := length_expand_le hk hbs
  refine ⟨(List.prefix_iff_eq_take.mp (prefix_expand key bs)).symm, length_expand hk hbs, fun off hoff4 hlo hhi => ?_⟩
  have hrec := wordAt_expand hk hoff4 hlo hhi
  rw [wordAt_eq (by omega), wordAt_eq (by omega), wordAt_eq (by omega)] at hrec
  refine ⟨fun h0 => ⟨?_, ?_⟩, fun h16 => ?_, fun h0 h16 => ?_⟩
  · exact Nat.le_of_lt_succ (Nat.div_lt_of_lt_mul (by omega))
  · rw [scheduleWord_rotated h0, stepCount_of_mod_eq_zero hk h0, word_eq_xorBytes_iff,
      show off - 4 + 1 = off - 3 by omega, show off - 4 + 2 = off - 2 by omega, show off - 4 + 3 = off - 1 by omega] at hrec
    exact hrec
  · rw [scheduleWord_substituted h16] at hrec
    obtain ⟨h0, h1, h2, h3⟩ := word_eq_xorBytes_iff.mp hrec
    exact fun j hj => by interval_cases j; exacts [h0, h1, h2, h3]
  · rw [scheduleWord_plain h0 h16] at hrec
    obtain ⟨h0, h1, h2, h3⟩ := word_eq_xorBytes_iff.mp hrec
    exact fun j hj => by interval_cases j; exacts [h0, h1, h2, h3]

/-! ## KEY_EXPAND (41 R265) -/

theorem toNat_ofNat_roundCount (ks bs : Nat) : (BitVec.ofNat 4 (roundCount ks bs)).toNat = roundCount ks bs :=
  Nat.mod_eq_of_lt (lt_of_le_of_lt (roundCount_le ks bs) (by decide))

theorem length_expand_cipherKey {s : State} {bs : Nat} (hk : LegalSize s.cfgKlen.toNat) (hbs : LegalSize bs) :
    (expand s.cipherKey bs).length = scheduleLength s.cfgKlen.toNat bs := by
  rw [← State.length_cipherKey] at hk ⊢
  exact length_expand hk hbs

/-- KEY_EXPAND past its two checks (41 R265). -/
theorem exec_keyExpand {s : State} {bs : Nat} (hv : s.cfgValid = true) (hbs : LegalSize bs) :
    exec (.keyExpand bs) s =
      .next ((s.storeSchedule (expand s.cipherKey bs) bs (roundCount s.cfgKlen.toNat bs)).complete .ok) := by
  rw [exec, execKeyExpand, if_neg (by simp [hv]), if_neg (not_not.mpr hbs), finish]

/-- Settles O33: the schedule is the one write to the buffers, the frame is the completion's. -/
theorem keyExpandResult : Obligations.KeyExpandResult := by
  intro s bs hv hk hbs
  have hrun := exec_keyExpand hv hbs
  have hdone := completion_of_exec hrun
  have hlen := length_expand_cipherKey hk hbs
  refine ⟨_, hrun, ⟨rfl, rfl, rfl⟩, ?_, rfl, toNat_ofNat_of_legalSize hbs, toNat_ofNat_roundCount _ _, fun x hx => ?_,
    hdone.slotSame nofun nofun, hdone.lengthsSame nofun, hdone.shellSame, rfl, rfl⟩
  · rw [← hlen]
    exact Memory.readBytes_writeBytes _ _ _
  · rw [← hlen] at hx
    exact Memory.read_writeBytes_outside _ hx

end Sys2Proof.Machine

/-! PROOFS. The family 42_round_transforms: the commands that write STATE and what they leave there, the round steps and their
inverses, and the two single-block transforms as inverses of each other. -/

namespace Sys2Proof.Machine

/-! ## A command that completes with a new block in STATE (42 R320 to R332, 10_state R65) -/

theorem stateByte_eq_getD (s : State) {bs i : Nat} (hi : i < bs) : s.stateByte i = (s.stateBytes bs).getD i 0 :=
  (Memory.getD_readBytes _ _ hi).symm

theorem wroteOnlyState_storeState (s : State) (b : Bytes) : WroteOnlyState b.length s ((s.storeState b).complete .ok) where
  completed := ⟨rfl, rfl, rfl⟩
  mem _ hx := Memory.read_writeBytes_outside _ hx
  outLen := rfl
  slot := ⟨rfl, rfl, rfl, rfl, rfl⟩
  schedule := ⟨rfl, rfl, rfl⟩
  lengths := ⟨rfl, rfl⟩
  shell := ⟨rfl, rfl, rfl, rfl, rfl, rfl, rfl, rfl, rfl⟩
  rng := rfl

/-- A completion that stores a block leaves it in STATE and writes nothing else. -/
theorem finish_storeState (s : State) {b : Bytes} {bs : Nat} (hb : b.length = bs) :
    ∃ t, finish (s.storeState b) = .next t ∧ WroteOnlyState bs s t ∧ t.stateBytes bs = b := by
  subst hb
  exact ⟨_, rfl, wroteOnlyState_storeState s b, Memory.readBytes_writeBytes _ _ _⟩

section Completing

variable (s : State) {f : Bytes → Bytes} {bs : Nat} (hbs : LegalSize bs) (hf : ∀ b, b.length = bs → (f b).length = bs)
include hbs hf

/-- A round step for a legal block size (42 R320 to R325). -/
theorem roundStep_stores : ∃ t, roundStep f bs s = .next t ∧ WroteOnlyState bs s t ∧
    t.stateBytes bs = f (s.stateBytes bs) := by
  rw [roundStep, if_neg (not_not_intro hbs)]
  exact finish_storeState s (hf _ (s.length_stateBytes bs))

/-- A keyed step under a schedule that serves it (42 R311, R326 to R332). -/
theorem keyedStep_stores {round : Nat} (hv : s.rkValid = true) (hrk : s.rkBs.toNat = bs) (hround : round ≤ s.rkNr.toNat) :
    ∃ t, keyedStep f bs round s = .next t ∧ WroteOnlyState bs s t ∧ t.stateBytes bs = f (s.stateBytes bs) := by
  have hserves : ¬ s.NoSchedule bs round := by simp [State.NoSchedule, hv, hrk, hround]
  rw [keyedStep, if_neg (not_not_intro hbs), if_neg hserves]
  exact finish_storeState s (hf _ (s.length_stateBytes bs))

end Completing

/-! ## Substitution (42 R301, R302) -/

/-- A round step that looks up every byte in a table. -/
theorem roundStep_map (s : State) {bs : Nat} (hbs : LegalSize bs) (table : Byte → Byte) :
    ∃ t, roundStep (List.map table) bs s = .next t ∧ WroteOnlyState bs s t ∧
      ∀ i, i < bs → t.stateByte i = table (s.stateByte i) := by
  obtain ⟨t, hrun, hwrote, ht⟩ := roundStep_stores s hbs (f := List.map table) (fun b hb => by rw [List.length_map, hb])
  refine ⟨t, hrun, hwrote, fun i hi => ?_⟩
  rw [stateByte_eq_getD t hi, ht, stateByte_eq_getD s hi]
  simp [hi]

/-- Settles O34: SubBytes and InvSubBytes look up every byte in their table. -/
theorem substitutionResults : Obligations.SubstitutionResults := fun s _ hbs =>
  ⟨roundStep_map s hbs sbox, roundStep_map s hbs invSbox⟩

theorem invSubBytes_subBytes (b : Bytes) : invSubBytes (subBytes b) = b := by
  simp [invSubBytes, subBytes, Function.comp_def, invSbox_sbox]

/-! ## The row shifts (42 R303, R305) -/

theorem getD_permute (p : Nat → Nat) {b : Bytes} {i : Nat} (hi : i < b.length) : (permute p b).getD i 0 = b.getD (p i) 0 := by
  simp [permute, hi]

theorem shiftOffset_le {bs : Nat} (hbs : LegalSize bs) (r : Nat) : shiftOffset bs r ≤ bs / 4 := by
  have h16 := hbs.sixteen_le
  unfold shiftOffset
  repeat' split
  all_goals omega

/-- The offsets of R303 as the two lists of the rule's table. -/
theorem shiftOffset_eq_getD (bs : Nat) {r : Nat} (hr : r < 4) :
    shiftOffset bs r = (if bs = 32 then [0, 1, 3, 4] else [0, 1, 2, 3]).getD r 0 := by
  split <;> interval_cases r <;> simp [shiftOffset, *]

theorem shiftIndex_row_column (bs : Nat) {r : Nat} (hr : r < 4) (col : Nat) :
    shiftIndex bs (r + 4 * col) = r + 4 * ((col + shiftOffset bs r) % (bs / 4)) := by
  rw [shiftIndex, show (r + 4 * col) % 4 = r by omega, show (r + 4 * col) / 4 = col by omega]

theorem invShiftIndex_row_column (bs : Nat) {r : Nat} (hr : r < 4) (col : Nat) :
    invShiftIndex bs (r + 4 * col) = r + 4 * ((col + (bs / 4 - shiftOffset bs r)) % (bs / 4)) := by
  rw [invShiftIndex, show (r + 4 * col) % 4 = r by omega, show (r + 4 * col) / 4 = col by omega]

/-- A column moved right by `c` and on to the right by the rest of the row is where it was. -/
theorem add_mod_add_sub_mod {n c col : Nat} (hc : c ≤ n) (hcol : col < n) : ((col + c) % n + (n - c)) % n = col := by
  rw [Nat.mod_add_mod, show col + c + (n - c) = col + n by omega, Nat.add_mod_right, Nat.mod_eq_of_lt hcol]

theorem invShiftIndex_shifted {bs : Nat} (hbs : LegalSize bs) {r col : Nat} (hr : r < 4) (hcol : col < bs / 4) :
    invShiftIndex bs (r + 4 * ((col + shiftOffset bs r) % (bs / 4))) = r + 4 * col := by
  rw [invShiftIndex_row_column bs hr, add_mod_add_sub_mod (shiftOffset_le hbs r) hcol]

/-- A byte of a block, moved within its row, stays in the block. -/
theorem row_column_lt {bs r col : Nat} (hr : r < 4) (hcol : col < bs / 4) : r + 4 * col < bs := by omega

theorem shifted_lt {bs r : Nat} (hbs : LegalSize bs) (hr : r < 4) (col : Nat) :
    r + 4 * ((col + shiftOffset bs r) % (bs / 4)) < bs :=
  row_column_lt hr (Nat.mod_lt _ (by have := hbs.sixteen_le; omega))

/-- A round step that reads every byte of the old block at a permuted index. -/
theorem roundStep_permute (s : State) {bs : Nat} (hbs : LegalSize bs) (p : Nat → Nat → Nat) :
    ∃ t, roundStep (fun b => permute (p b.length) b) bs s = .next t ∧ WroteOnlyState bs s t ∧
      ∀ i, i < bs → p bs i < bs → t.stateByte i = s.stateByte (p bs i) := by
  obtain ⟨t, hrun, hwrote, ht⟩ :=
    roundStep_stores s hbs (f := fun b => permute (p b.length) b) (fun b hb => by simp [permute, hb])
  refine ⟨t, hrun, hwrote, fun i hi hp => ?_⟩
  rw [stateByte_eq_getD t hi, ht, getD_permute _ (by simpa using hi), State.length_stateBytes, ← stateByte_eq_getD s hp]

/-- Settles O35: SHIFT_ROWS reads every byte C_r columns to its right, INV_SHIFT_ROWS reads the moved byte back. -/
theorem shiftRowsResults : Obligations.ShiftRowsResults := by
  intro s bs hbs c
  have hc {r : Nat} (hr : r < 4) : c r = shiftOffset bs r := (shiftOffset_eq_getD bs hr).symm
  obtain ⟨t, hrun, hwrote, ht⟩ := roundStep_permute s hbs shiftIndex
  obtain ⟨u, hrun', hwrote', hu⟩ := roundStep_permute s hbs invShiftIndex
  refine ⟨⟨t, hrun, hwrote, fun r col hr hcol => ?_⟩, u, hrun', hwrote', fun r col hr hcol => ?_⟩ <;> rw [hc hr]
  · rw [ht _ (row_column_lt hr hcol) (by rw [shiftIndex_row_column bs hr]; exact shifted_lt hbs hr col),
      shiftIndex_row_column bs hr]
  · have hback := invShiftIndex_shifted hbs hr hcol
    rw [hu _ (shifted_lt hbs hr col) (by rw [hback]; exact row_column_lt hr hcol), hback]

theorem shiftRows_invShiftRows {b : Bytes} (hb : LegalSize b.length) : shiftRows (invShiftRows b) = b := by
  refine List.ext_getElem (by simp) fun i _ hi => ?_
  obtain ⟨r, col, hr, hcol, rfl⟩ : ∃ r col, r < 4 ∧ col < b.length / 4 ∧ i = r + 4 * col :=
    ⟨i % 4, i / 4, by omega, by have := hb.mod_four; omega, by omega⟩
  have hto := shifted_lt hb hr col
  rw [← List.getD_eq_getElem _ 0, ← List.getD_eq_getElem _ 0, shiftRows, getD_permute _ (by simpa using hi),
    length_invShiftRows, shiftIndex_row_column _ hr, invShiftRows, getD_permute _ hto, invShiftIndex_shifted hb hr hcol]

/-! ## The column products (42 R306, R307)

Both products are circulant: each row is the row before it on the column rotated by one. So one row of the product of the two
matrices says all of it: in the field, its coefficients are 1, 0, 0, 0. -/

/-- The product in the field, with the order of the factors changed (40 R201). -/
theorem gfMul_comm (a b : Byte) : gfMul a b = gfMul b a := by
  simpa only [one_gfMul] using gfMul_right_comm 1 a b

theorem gfMul_assoc (a b c : Byte) : gfMul (gfMul a b) c = gfMul a (gfMul b c) := by
  rw [gfMul_comm a, gfMul_right_comm, gfMul_comm]

theorem gfMul_xor_right (a b c : Byte) : gfMul a (b ^^^ c) = gfMul a b ^^^ gfMul a c := by
  rw [gfMul_comm, gfMul_xor_left, gfMul_comm b, gfMul_comm c]

theorem zero_gfMul (x : Byte) : gfMul 0 x = 0 := by
  simpa using gfMul_xor_left 0 0 x

/-- The first row of MixColumns on a column (R306). -/
def mixRow (a0 a1 a2 a3 : Byte) : Byte := gfMul2 a0 ^^^ gfMul3 a1 ^^^ a2 ^^^ a3

/-- The first row of InvMixColumns on a column (R307). -/
def invMixRow (a0 a1 a2 a3 : Byte) : Byte := gfMul14 a0 ^^^ gfMul11 a1 ^^^ gfMul13 a2 ^^^ gfMul9 a3

theorem mixColumn_eq_rows (a0 a1 a2 a3 : Byte) : mixColumn a0 a1 a2 a3 =
    [mixRow a0 a1 a2 a3, mixRow a1 a2 a3 a0, mixRow a2 a3 a0 a1, mixRow a3 a0 a1 a2] := by
  simp only [mixColumn, mixRow, List.cons.injEq, and_true, true_and]
  refine ⟨?_, ?_, ?_⟩ <;> ac_rfl

theorem invMixColumn_eq_rows (a0 a1 a2 a3 : Byte) : invMixColumn a0 a1 a2 a3 =
    [invMixRow a0 a1 a2 a3, invMixRow a1 a2 a3 a0, invMixRow a2 a3 a0 a1, invMixRow a3 a0 a1 a2] := by
  simp only [invMixColumn, invMixRow, List.cons.injEq, and_true, true_and]
  refine ⟨?_, ?_, ?_⟩ <;> ac_rfl

/-- The first row of the product of the two matrices. -/
theorem invMixRow_mixRow (a0 a1 a2 a3 : Byte) :
    invMixRow (mixRow a0 a1 a2 a3) (mixRow a1 a2 a3 a0) (mixRow a2 a3 a0 a1) (mixRow a3 a0 a1 a2) = a0 :=
  calc
    _ = gfMul (gfMul 14 2 ^^^ 11 ^^^ 13 ^^^ gfMul 9 3) a0 ^^^ gfMul (gfMul 14 3 ^^^ gfMul 11 2 ^^^ 13 ^^^ 9) a1 ^^^
        gfMul (14 ^^^ gfMul 11 3 ^^^ gfMul 13 2 ^^^ 9) a2 ^^^ gfMul (14 ^^^ 11 ^^^ gfMul 13 3 ^^^ gfMul 9 2) a3 := by
      simp only [invMixRow, mixRow, gfMul2_eq_gfMul, gfMul3_eq_gfMul, gfMul9_eq_gfMul, gfMul11_eq_gfMul, gfMul13_eq_gfMul,
        gfMul14_eq_gfMul, gfMul_xor_left, gfMul_xor_right, gfMul_assoc]
      ac_rfl
    _ = gfMul 1 a0 ^^^ gfMul 0 a1 ^^^ gfMul 0 a2 ^^^ gfMul 0 a3 := rfl
    _ = a0 := by rw [one_gfMul, zero_gfMul, zero_gfMul, zero_gfMul]; simp

theorem invMixColumns_mixColumns (b : Bytes) : invMixColumns (mixColumns b) = b := by
  unfold invMixColumns mixColumns
  induction b using mapColumns.induct with
  | case1 a0 a1 a2 a3 rest ih =>
    simp only [mapColumns, mixColumn_eq_rows, List.cons_append, List.nil_append, invMixColumn_eq_rows, invMixRow_mixRow, ih]
  | case2 rest h => rw [mapColumns.eq_2 _ _ h, mapColumns.eq_2 _ _ h]

/-- Byte `k` of column `col` of a mapped block. -/
theorem getD_mapColumns {f : Byte → Byte → Byte → Byte → Bytes} (hf : ∀ a0 a1 a2 a3, (f a0 a1 a2 a3).length = 4) {k : Nat}
    (hk : k < 4) {b : Bytes} {col : Nat} (hcol : col < b.length / 4) :
    (mapColumns f b).getD (4 * col + k) 0 =
      (f (b.getD (4 * col) 0) (b.getD (4 * col + 1) 0) (b.getD (4 * col + 2) 0) (b.getD (4 * col + 3) 0)).getD k 0 := by
  induction b using mapColumns.induct generalizing col with
  | case1 a0 a1 a2 a3 rest ih =>
    cases col with
    | zero => rw [mapColumns, Nat.mul_zero, Nat.zero_add, List.getD_append _ _ _ _ (by rw [hf]; exact hk)]; rfl
    | succ col =>
      have hrest : col < rest.length / 4 := by simp only [List.length_cons] at hcol; omega
      rw [mapColumns, List.getD_append_right _ _ _ _ (by rw [hf]; omega), hf, show 4 * (col + 1) + k - 4 = 4 * col + k by omega,
        ih hrest]
      rfl
  | case2 rest h =>
    match rest, h with
    | [], _ | [_], _ | [_, _], _ | [_, _, _], _ => exact absurd hcol (by simp)
    | a0 :: a1 :: a2 :: a3 :: rest, h => exact (h _ _ _ _ _ rfl).elim

/-- A round step that maps every column. -/
theorem roundStep_mapColumns (s : State) {bs : Nat} (hbs : LegalSize bs) {f : Byte → Byte → Byte → Byte → Bytes}
    (hf : ∀ a0 a1 a2 a3, (f a0 a1 a2 a3).length = 4) :
    ∃ t, roundStep (mapColumns f) bs s = .next t ∧ WroteOnlyState bs s t ∧ ∀ col, col < bs / 4 → ∀ k, k < 4 →
      t.stateByte (4 * col + k) = (f (s.stateByte (4 * col)) (s.stateByte (4 * col + 1)) (s.stateByte (4 * col + 2))
        (s.stateByte (4 * col + 3))).getD k 0 := by
  obtain ⟨t, hrun, hwrote, ht⟩ :=
    roundStep_stores s hbs (f := mapColumns f) (fun b hb => (length_mapColumns hf b).trans hb)
  refine ⟨t, hrun, hwrote, fun col hcol k hk => ?_⟩
  have hfirst : 4 * col < bs := by omega
  have hin {j : Nat} (hj : j < 4) : 4 * col + j < bs := by omega
  rw [stateByte_eq_getD t (hin hk), ht, getD_mapColumns hf hk (by rwa [State.length_stateBytes]),
    stateByte_eq_getD s hfirst, stateByte_eq_getD s (hin (j := 1) (by decide)),
    stateByte_eq_getD s (hin (j := 2) (by decide)), stateByte_eq_getD s (hin (j := 3) (by decide))]

/-- Settles O36: the four bytes of each column, one row of the product each. -/
theorem mixColumnsResults : Obligations.MixColumnsResults := by
  intro s bs hbs a
  obtain ⟨t, hrun, hwrote, ht⟩ := roundStep_mapColumns s hbs (f := mixColumn) (fun _ _ _ _ => rfl)
  obtain ⟨u, hrun', hwrote', hu⟩ := roundStep_mapColumns s hbs (f := invMixColumn) (fun _ _ _ _ => rfl)
  exact ⟨⟨t, hrun, hwrote, fun col hcol => ⟨ht col hcol 0 (by decide), ht col hcol 1 (by decide), ht col hcol 2 (by decide),
    ht col hcol 3 (by decide)⟩⟩, u, hrun', hwrote', fun col hcol => ⟨hu col hcol 0 (by decide), hu col hcol 1 (by decide),
    hu col hcol 2 (by decide), hu col hcol 3 (by decide)⟩⟩

/-! ## The inverse laws (42 R308) -/

/-- There are finitely many blocks of a length, so every block is the image of one under a step that can be undone; so what
undoes the step is undone by it. -/
theorem apply_undo_of_undo_apply {n : Nat} {f g : Bytes → Bytes} (hf : ∀ b, b.length = n → (f b).length = n)
    (hgf : ∀ b, b.length = n → g (f b) = b) {b : Bytes} (hb : b.length = n) : f (g b) = b := by
  obtain ⟨c, hc, rfl⟩ := Set.surj_on_of_inj_on_of_ncard_le (s := {b : Bytes | b.length = n})
    (t := {b : Bytes | b.length = n}) (fun b _ => f b) hf
    (fun b c hb hc h => by rw [← hgf b hb, ← hgf c hc, h]) le_rfl (List.finite_length_eq Byte n) b hb
  rw [hgf c hc]

theorem invShiftRows_shiftRows {b : Bytes} (hb : LegalSize b.length) : invShiftRows (shiftRows b) = b :=
  apply_undo_of_undo_apply (fun c => (length_invShiftRows c).trans) (fun _ hc => shiftRows_invShiftRows (hc ▸ hb)) rfl

theorem mixColumns_invMixColumns (b : Bytes) : mixColumns (invMixColumns b) = b :=
  apply_undo_of_undo_apply (fun c => (length_mixColumns c).trans) (fun c _ => invMixColumns_mixColumns c) rfl

theorem subBytes_invSubBytes (b : Bytes) : subBytes (invSubBytes b) = b := by
  simp [invSubBytes, subBytes, Function.comp_def, sbox_invSbox]

/-- Settles O39: the tables, the index maps and the matrices undo each other. -/
theorem roundStepsInverse : Obligations.RoundStepsInverse := fun b hb =>
  ⟨invSubBytes_subBytes b, subBytes_invSubBytes b, invShiftRows_shiftRows hb, shiftRows_invShiftRows hb,
    invMixColumns_mixColumns b, mixColumns_invMixColumns b⟩

/-! ## ADD_ROUND_KEY (42 R310, R326) -/

theorem getD_addRoundKey {b k : Bytes} {i : Nat} (hb : i < b.length) (hk : i < k.length) :
    (addRoundKey b k).getD i 0 = b.getD i 0 ^^^ k.getD i 0 := by
  simp [addRoundKey, xorBytes, hb, hk]

theorem getD_roundKey (s : State) {bs i : Nat} (hi : i < bs) (r : Nat) :
    (s.roundKey bs r).getD i 0 = s.rkByte (r * bs + i) := by
  rw [State.roundKey, Memory.getD_readBytes _ _ hi, State.rkByte, Nat.add_assoc]

/-- Settles O37: the block and the round key are xored byte by byte. -/
theorem addRoundKeyResult : Obligations.AddRoundKeyResult := by
  intro s bs round hbs hv hrk hround
  obtain ⟨t, hrun, hwrote, ht⟩ := keyedStep_stores s hbs (f := fun b => addRoundKey b (s.roundKey bs round))
    (fun b hb => (length_addRoundKey ((s.length_roundKey bs round).trans hb.symm)).trans hb) hv hrk hround
  refine ⟨t, hrun, hwrote, fun i hi => ?_⟩
  rw [stateByte_eq_getD t hi, ht, getD_addRoundKey (by simpa using hi) (by simpa using hi), ← stateByte_eq_getD s hi,
    getD_roundKey s hi]

/-! ## The two block commands (42 R312, R313, R330, R332) -/

/-- The state after round `r` of encBlock, 0 standing for the first AddRoundKey (R312). -/
def encState (rk : Nat → Bytes) (b : Bytes) (r : Nat) : Bytes :=
  (List.range' 1 r).foldl (encRound rk) (addRoundKey b (rk 0))

/-- The state after round `r` of decBlock, `nr` standing for the steps before the first full round (R313). -/
def decState (rk : Nat → Bytes) (nr : Nat) (b : Bytes) (r : Nat) : Bytes :=
  (List.range' r (nr - r)).reverse.foldl (decRound rk) (invSubBytes (invShiftRows (addRoundKey b (rk nr))))

theorem encState_succ (rk : Nat → Bytes) (b : Bytes) (r : Nat) :
    encState rk b (r + 1) = encRound rk (encState rk b r) (r + 1) := by
  rw [encState, List.range'_1_concat, List.foldl_concat, Nat.add_comm 1 r, encState]

theorem decState_last (rk : Nat → Bytes) (nr : Nat) (b : Bytes) :
    decState rk nr b nr = invSubBytes (invShiftRows (addRoundKey b (rk nr))) := by
  rw [decState, Nat.sub_self]; rfl

theorem decState_of_lt (rk : Nat → Bytes) {nr r : Nat} (hr : r < nr) (b : Bytes) :
    decState rk nr b r = decRound rk (decState rk nr b (r + 1)) r := by
  rw [decState, show nr - r = nr - (r + 1) + 1 by omega, List.range'_succ, List.reverse_cons, List.foldl_concat, decState]

section BlockCommands

variable (s : State) {bs : Nat} (hbs : LegalSize bs) (hv : s.rkValid = true) (hrk : s.rkBs.toNat = bs)
include hbs hv hrk

theorem execEncBlock_stores : ∃ t, exec (.encBlock bs) s = .next t ∧ WroteOnlyState bs s t ∧
    t.stateBytes bs = encryptBlock (s.roundKey bs) s.rkNr.toNat (s.stateBytes bs) :=
  keyedStep_stores s hbs
    (fun _ hb => (length_encryptBlock fun r _ => (s.length_roundKey bs r).trans hb.symm).trans hb) hv hrk le_rfl

theorem execDecBlock_stores : ∃ t, exec (.decBlock bs) s = .next t ∧ WroteOnlyState bs s t ∧
    t.stateBytes bs = decryptBlock (s.roundKey bs) s.rkNr.toNat (s.stateBytes bs) :=
  keyedStep_stores s hbs
    (fun _ hb => (length_decryptBlock fun r _ => (s.length_roundKey bs r).trans hb.symm).trans hb) hv hrk le_rfl

end BlockCommands

/-- Settles O38: the sequences are the states after each round, and the last of them is in STATE. -/
theorem blockCommandResults : Obligations.BlockCommandResults := by
  intro s bs hbs hv hrk hnr nr ark
  obtain ⟨t, hrun, hwrote, ht⟩ := execEncBlock_stores s hbs hv hrk
  obtain ⟨u, hrun', hwrote', hu⟩ := execDecBlock_stores s hbs hv hrk
  refine ⟨⟨t, hrun, hwrote, encState (s.roundKey bs) (s.stateBytes bs), rfl, fun r hr _ => ?_, ht⟩,
    u, hrun', hwrote', decState (s.roundKey bs) nr (s.stateBytes bs), decState_last _ _ _,
    fun r _ hr => decState_of_lt _ hr _, hu⟩
  obtain ⟨r, rfl⟩ := Nat.exists_eq_add_of_le' hr
  exact encState_succ _ _ _

/-! ## decBlock undoes encBlock (42 R314) -/

theorem addRoundKey_addRoundKey {b k : Bytes} (h : k.length = b.length) : addRoundKey (addRoundKey b k) k = b := by
  refine List.ext_getElem (by rw [length_addRoundKey, length_addRoundKey h]; rwa [length_addRoundKey h]) fun i _ _ => ?_
  simp [addRoundKey, xorBytes]

section Inverse

variable {rk : Nat → Bytes} {n : Nat} (hn : LegalSize n)

theorem length_encRound {b : Bytes} {r : Nat} (hb : b.length = n) (hr : (rk r).length = n) :
    (encRound rk b r).length = n := by
  rw [encRound, length_addRoundKey] <;> simp [hb, hr]

include hn

/-- The final round of encBlock and the first steps of decBlock. -/
theorem undo_finalRound {b k : Bytes} (hb : b.length = n) (hk : k.length = n) :
    invSubBytes (invShiftRows (addRoundKey (addRoundKey (shiftRows (subBytes b)) k) k)) = b := by
  rw [addRoundKey_addRoundKey (by simp [hb, hk]), invShiftRows_shiftRows (by simpa [hb] using hn), invSubBytes_subBytes]

theorem decRound_encRound {b : Bytes} {r : Nat} (hb : b.length = n) (hr : (rk r).length = n) :
    decRound rk (encRound rk b r) r = b := by
  rw [decRound, encRound, addRoundKey_addRoundKey (by simp [hb, hr]), invMixColumns_mixColumns,
    invShiftRows_shiftRows (by simpa [hb] using hn), invSubBytes_subBytes]

/-- The rounds of decBlock undo those of encBlock, last one first. -/
theorem foldl_decRound_foldl_encRound (rs : List Nat) {b : Bytes} (hb : b.length = n) (hk : ∀ r ∈ rs, (rk r).length = n) :
    rs.reverse.foldl (decRound rk) (rs.foldl (encRound rk) b) = b := by
  induction rs generalizing b with
  | nil => rfl
  | cons r rs ih =>
    obtain ⟨hr, hrs⟩ := List.forall_mem_cons.mp hk
    rw [List.foldl_cons, List.reverse_cons, List.foldl_concat, ih (length_encRound hb hr) hrs, decRound_encRound hn hb hr]

theorem decryptBlock_encryptBlock {nr : Nat} {b : Bytes} (hb : b.length = n) (hk : ∀ r, r ≤ nr → (rk r).length = n) :
    decryptBlock rk nr (encryptBlock rk nr b) = b := by
  have hrounds : ∀ r ∈ List.range' 1 (nr - 1), (rk r).length = n := fun r hr => hk r (by have := List.mem_range'_1.mp hr; omega)
  have h0 : (addRoundKey b (rk 0)).length = n := (length_addRoundKey ((hk 0 (Nat.zero_le _)).trans hb.symm)).trans hb
  have hlast := length_foldl_round (rk := rk) (fun _ _ => length_encRound) _ h0 hrounds
  rw [decryptBlock, encryptBlock, undo_finalRound hn hlast (hk nr le_rfl), foldl_decRound_foldl_encRound hn _ h0 hrounds,
    addRoundKey_addRoundKey ((hk 0 (Nat.zero_le _)).trans hb.symm)]

end Inverse

/-- Settles O40: the schedule of the key has every round key the two transforms read. -/
theorem blockRoundTrip : Obligations.BlockRoundTrip := fun _ _ hk hb =>
  decryptBlock_encryptBlock hb rfl fun _ hr => length_roundKeyOf_expand hk hb hr

/-- RK lies above STATE, so that a command which writes STATE alone leaves the round keys. -/
theorem WroteOnlyState.roundKey_eq {bs : Nat} {s t : State} (h : WroteOnlyState bs s t) (hbs : LegalSize bs) :
    t.roundKey bs = s.roundKey bs := by
  have hcap := hbs.le_blockCap
  exact funext fun r => Memory.readBytes_congr fun k _ =>
    h.mem _ (.inr (by simp only [stateBase, rkBase, blockCap] at *; omega))

/-- Two commands that write STATE alone and put its block back leave every byte as it was. -/
theorem WroteOnlyState.memSame {bs : Nat} {s t u : State} (h : WroteOnlyState bs s t) (h' : WroteOnlyState bs t u)
    (hback : u.stateBytes bs = s.stateBytes bs) : MemSame s u := by
  intro x
  by_cases hx : x < stateBase ∨ stateBase + bs ≤ x
  · rw [h'.mem x hx, h.mem x hx]
  · obtain ⟨i, rfl⟩ := Nat.exists_eq_add_of_le (show stateBase ≤ x by omega)
    have hi : i < bs := by omega
    exact (stateByte_eq_getD u hi).trans (hback ▸ (stateByte_eq_getD s hi).symm)

/-- Settles O41: ENC_BLOCK leaves the schedule, so DEC_BLOCK runs with the same round keys and undoes it. -/
theorem encThenDecBlockRestoresState : Obligations.EncThenDecBlockRestoresState := by
  intro s bs hbs hv hrk
  obtain ⟨t, hrun, hwrote, ht⟩ := execEncBlock_stores s hbs hv hrk
  have hregs := hwrote.schedule
  obtain ⟨u, hrun', hwrote', hu⟩ := execDecBlock_stores t hbs (hregs.valid.trans hv) (by rw [hregs.bs, hrk])
  rw [hwrote.roundKey_eq hbs, hregs.nr, ht, decryptBlock_encryptBlock hbs (s.length_stateBytes bs)
    fun r _ => s.length_roundKey bs r] at hu
  exact ⟨t, u, hrun, hrun', hwrote.completed.errcode, hwrote'.completed.errcode, hwrote.memSame hwrote' hu⟩

end Sys2Proof.Machine

/-! PROOFS. The family 43_chaining: the two loops block by block and as inverses of each other, and ENCRYPT and DECRYPT, what
they leave, that one undoes the other, and what their results depend on. -/

namespace Sys2Proof.Machine

/-! ## Blocks of a byte sequence, and the chain value before each (43 R350, R351) -/

theorem length_blockOf {d : Bytes} {bs i : Nat} (h : (i + 1) * bs ≤ d.length) : (blockOf d bs i).length = bs :=
  length_roundKeyOf h

theorem blockOf_zero (d : Bytes) (bs : Nat) : blockOf d bs 0 = d.take bs := by
  rw [blockOf, Nat.zero_mul, List.drop_zero]

theorem blockOf_succ (d : Bytes) (bs i : Nat) : blockOf d bs (i + 1) = blockOf (d.drop bs) bs i := by
  rw [blockOf, blockOf, List.drop_drop, Nat.succ_mul, Nat.add_comm bs]

/-- What enters the block transform, or leaves it in DECRYPT: in CBC xored with the chain value. -/
def chainXor (md : Mode) (b prev : Bytes) : Bytes :=
  match md with
  | .ecb => b
  | .cbc => xorBytes b prev

/-- The chain value after a block with ciphertext `y`. -/
def chainNext (md : Mode) (prev y : Bytes) : Bytes :=
  match md with
  | .ecb => prev
  | .cbc => y

/-- The chain value before block `i` of the ciphertext `c`: in CBC the previous ciphertext block, or `iv` before the first. -/
def chainValue (md : Mode) (iv c : Bytes) (bs i : Nat) : Bytes :=
  match md with
  | .ecb => iv
  | .cbc => if i = 0 then iv else blockOf c bs (i - 1)

theorem chainEncLoop_succ (enc : Bytes → Bytes) (bs : Nat) (md : Mode) (m : Nat) (prev p : Bytes) :
    chainEncLoop enc bs md (m + 1) prev p =
      let y := enc (chainXor md (p.take bs) prev)
      let rest := chainEncLoop enc bs md m (chainNext md prev y) (p.drop bs)
      (y ++ rest.1, rest.2) := by
  cases md <;> rfl

theorem chainDecLoop_succ (dec : Bytes → Bytes) (bs : Nat) (md : Mode) (m : Nat) (prev c : Bytes) :
    chainDecLoop dec bs md (m + 1) prev c =
      let rest := chainDecLoop dec bs md m (chainNext md prev (c.take bs)) (c.drop bs)
      (chainXor md (dec (c.take bs)) prev ++ rest.1, rest.2) := by
  cases md <;> rfl

theorem length_chainXor {md : Mode} {b prev : Bytes} (h : prev.length = b.length) : (chainXor md b prev).length = b.length := by
  cases md with
  | ecb => rfl
  | cbc => rw [chainXor, length_xorBytes, h, Nat.min_self]

theorem length_chainNext {md : Mode} {prev y : Bytes} (h : y.length = prev.length) :
    (chainNext md prev y).length = prev.length := by
  cases md with
  | ecb => rfl
  | cbc => exact h

theorem chainXor_chainXor {md : Mode} {b prev : Bytes} (h : prev.length = b.length) :
    chainXor md (chainXor md b prev) prev = b := by
  cases md with
  | ecb => rfl
  | cbc => exact addRoundKey_addRoundKey h

theorem chainValue_zero (md : Mode) (iv c : Bytes) (bs : Nat) : chainValue md iv c bs 0 = iv := by
  cases md <;> rfl

theorem chainValue_succ (md : Mode) (iv c : Bytes) (bs i : Nat) :
    chainValue md iv c bs (i + 1) = chainValue md (chainNext md iv (c.take bs)) (c.drop bs) bs i := by
  cases md with
  | ecb => rfl
  | cbc =>
    cases i with
    | zero => exact blockOf_zero c bs
    | succ i => exact blockOf_succ c bs i

/-- The chain value depends on the ciphertext blocks before it alone. -/
theorem chainValue_congr {md : Mode} {iv c c' : Bytes} {bs j : Nat} (h : ∀ i, i < j → blockOf c bs i = blockOf c' bs i) :
    chainValue md iv c bs j = chainValue md iv c' bs j := by
  cases md with
  | ecb => rfl
  | cbc =>
    cases j with
    | zero => rfl
    | succ j => exact h j j.lt_succ_self

/-! ## The loops block by block (43 R350, R351) -/

section Loops

variable {enc dec : Bytes → Bytes} {bs : Nat}

/-- Each block of chainDec and its last value, for any number of blocks that the ciphertext has. -/
theorem chainDecLoop_blocks (hdec : ∀ b, b.length = bs → (dec b).length = bs) (md : Mode) (m : Nat) {prev c : Bytes}
    (hprev : prev.length = bs) (hc : m * bs ≤ c.length) :
    (∀ i, i < m → blockOf (chainDecLoop dec bs md m prev c).1 bs i =
      chainXor md (dec (blockOf c bs i)) (chainValue md prev c bs i)) ∧
    (chainDecLoop dec bs md m prev c).2 = chainValue md prev c bs m := by
  induction m generalizing prev c with
  | zero => exact ⟨nofun, (chainValue_zero _ _ _ _).symm⟩
  | succ m ih =>
    rw [Nat.succ_mul] at hc
    have hhead : (c.take bs).length = bs := List.length_take_of_le (by omega)
    have hout : (chainXor md (dec (c.take bs)) prev).length = bs := by
      rw [length_chainXor (by rw [hprev, hdec _ hhead]), hdec _ hhead]
    obtain ⟨hblocks, hlast⟩ := ih (prev := chainNext md prev (c.take bs)) (c := c.drop bs)
      (by rw [length_chainNext (by rw [hhead, hprev]), hprev]) (by rw [List.length_drop]; omega)
    rw [chainDecLoop_succ, chainValue_succ]
    refine ⟨fun i hi => ?_, hlast⟩
    cases i with
    | zero => rw [blockOf_zero, blockOf_zero, chainValue_zero, List.take_left' hout]
    | succ i => rw [blockOf_succ, blockOf_succ, chainValue_succ, List.drop_left' hout, hblocks i (by omega)]

variable (henc : ∀ b, b.length = bs → (enc b).length = bs)
include henc

/-- Each block of chainEnc, under the chain value that its own result gives, and its last value. -/
theorem chainEncLoop_blocks (md : Mode) (m : Nat) {prev p : Bytes} (hprev : prev.length = bs) (hp : m * bs ≤ p.length) :
    let c := (chainEncLoop enc bs md m prev p).1
    (∀ i, i < m → blockOf c bs i = enc (chainXor md (blockOf p bs i) (chainValue md prev c bs i))) ∧
    (chainEncLoop enc bs md m prev p).2 = chainValue md prev c bs m := by
  induction m generalizing prev p with
  | zero => exact ⟨nofun, (chainValue_zero _ _ _ _).symm⟩
  | succ m ih =>
    rw [Nat.succ_mul] at hp
    have hhead : (p.take bs).length = bs := List.length_take_of_le (by omega)
    have hy : (enc (chainXor md (p.take bs) prev)).length = bs :=
      henc _ (by rw [length_chainXor (by rw [hprev, hhead]), hhead])
    obtain ⟨hblocks, hlast⟩ := ih (prev := chainNext md prev (enc (chainXor md (p.take bs) prev))) (p := p.drop bs)
      (by rw [length_chainNext (by rw [hy, hprev]), hprev]) (by rw [List.length_drop]; omega)
    simp only [chainEncLoop_succ, chainValue_succ, List.take_left' hy, List.drop_left' hy]
    refine ⟨fun i hi => ?_, hlast⟩
    cases i with
    | zero => rw [blockOf_zero, blockOf_zero, chainValue_zero, List.take_left' hy]
    | succ i =>
      rw [blockOf_succ, blockOf_succ, chainValue_succ, List.take_left' hy, List.drop_left' hy, hblocks i (by omega)]

/-- Each block of chainDec undoes the block of chainEnc, and the chain values run alike (43 R356). -/
theorem chainDecLoop_chainEncLoop (hinv : ∀ b, b.length = bs → dec (enc b) = b) (md : Mode) (m : Nat) {prev p : Bytes}
    (hprev : prev.length = bs) (hp : p.length = m * bs) :
    chainDecLoop dec bs md m prev (chainEncLoop enc bs md m prev p).1 = (p, (chainEncLoop enc bs md m prev p).2) := by
  induction m generalizing prev p with
  | zero => rw [List.length_eq_zero_iff.mp (hp.trans (Nat.zero_mul _))]; rfl
  | succ m ih =>
    rw [Nat.succ_mul] at hp
    have hhead : (p.take bs).length = bs := List.length_take_of_le (by omega)
    have hin : (chainXor md (p.take bs) prev).length = bs := by rw [length_chainXor (by rw [hprev, hhead]), hhead]
    have hy := henc _ hin
    have hrest := ih (prev := chainNext md prev (enc (chainXor md (p.take bs) prev))) (p := p.drop bs)
      (by rw [length_chainNext (by rw [hy, hprev]), hprev]) (by rw [List.length_drop]; omega)
    simp only [chainEncLoop_succ, chainDecLoop_succ, List.take_left' hy, List.drop_left' hy, hrest, hinv _ hin,
      chainXor_chainXor (hprev.trans hhead.symm), List.take_append_drop]

end Loops

theorem length_chainValue {md : Mode} {iv c : Bytes} {bs i : Nat} (hiv : iv.length = bs) (hi : i * bs ≤ c.length) :
    (chainValue md iv c bs i).length = bs := by
  cases md with
  | ecb => exact hiv
  | cbc =>
    cases i with
    | zero => exact hiv
    | succ i => exact length_blockOf hi

/-! ## The block transforms under a schedule (42 R312 to R314) -/

section Schedule

variable {rk : Nat → Bytes} {bs nr : Nat} (hrk : ∀ r, r ≤ nr → (rk r).length = bs)
include hrk

theorem length_encryptBlock_of_keys (b : Bytes) (hb : b.length = bs) : (encryptBlock rk nr b).length = bs :=
  (length_encryptBlock fun r hr => (hrk r hr).trans hb.symm).trans hb

theorem length_decryptBlock_of_keys (b : Bytes) (hb : b.length = bs) : (decryptBlock rk nr b).length = bs :=
  (length_decryptBlock fun r hr => (hrk r hr).trans hb.symm).trans hb

end Schedule

/-- Settles O42: both loops block by block, with the chain value of each mode before the block. -/
theorem chainingBlocks : Obligations.ChainingBlocks := by
  intro d w bs nr iv hbs hd hiv hrk enc dec m
  have henc := length_encryptBlock_of_keys hrk
  have hdec := length_decryptBlock_of_keys hrk
  have hm : m * bs = d.length := Nat.div_mul_cancel (Nat.dvd_of_mod_eq_zero hd)
  have hblocksEnc (md : Mode) := chainEncLoop_blocks henc md m hiv hm.le
  have hblocksDec (md : Mode) := chainDecLoop_blocks hdec md m hiv hm.le
  refine ⟨fun md => ⟨?_, ?_⟩, fun i hi => ⟨(hblocksEnc .ecb).1 i hi, (hblocksDec .ecb).1 i hi⟩,
    fun i hi => ⟨(hblocksEnc .cbc).1 i hi, (hblocksDec .cbc).1 i hi⟩, (hblocksEnc .cbc).2, (hblocksDec .cbc).2⟩
  · exact (length_chainEncLoop henc md m hiv hm.le).1.trans hm
  · exact (length_chainDecLoop hdec md m hiv hm.le).1.trans hm

section Expanded

variable {key iv : Bytes} {bs : Nat} (hk : LegalSize key.length) (hbs : LegalSize bs) (hiv : iv.length = bs)
include hk hbs

/-- encBlock under the schedule of a key keeps a block's length. -/
theorem length_encryptBlock_expand (b : Bytes) (hb : b.length = bs) :
    (encryptBlock (roundKeyOf (expand key bs) bs) (roundCount key.length bs) b).length = bs :=
  length_encryptBlock_of_keys (fun _ => length_roundKeyOf_expand hk hbs) b hb

/-- decBlock undoes encBlock under the schedule of a key. -/
theorem decryptBlock_encryptBlock_expand (b : Bytes) (hb : b.length = bs) :
    decryptBlock (roundKeyOf (expand key bs) bs) (roundCount key.length bs)
      (encryptBlock (roundKeyOf (expand key bs) bs) (roundCount key.length bs) b) = b :=
  decryptBlock_encryptBlock hbs hb fun _ => length_roundKeyOf_expand hk hbs

/-- Two blocks that encrypt alike under one chain value are equal. -/
theorem eq_of_encryptBlock_chainXor_eq {md : Mode} {x y prev : Bytes} (hx : x.length = bs) (hy : y.length = bs)
    (hprev : prev.length = bs)
    (h : encryptBlock (roundKeyOf (expand key bs) bs) (roundCount key.length bs) (chainXor md x prev) =
      encryptBlock (roundKeyOf (expand key bs) bs) (roundCount key.length bs) (chainXor md y prev)) : x = y := by
  have hin {b : Bytes} (hb : b.length = bs) : (chainXor md b prev).length = bs :=
    (length_chainXor (hprev.trans hb.symm)).trans hb
  have hxor := decryptBlock_encryptBlock_expand hk hbs _ (hin hx)
  rw [h, decryptBlock_encryptBlock_expand hk hbs _ (hin hy)] at hxor
  rw [← chainXor_chainXor (md := md) (hprev.trans hx.symm), ← hxor, chainXor_chainXor (hprev.trans hy.symm)]

include hiv

/-- chainDec undoes chainEnc under the schedule of a key (43 R356). -/
theorem chainDec_chainEnc_expand {p : Bytes} (hp : p.length % bs = 0) (md : Mode) :
    let c := chainEnc p (expand key bs) bs (roundCount key.length bs) md iv
    chainDec c.1 (expand key bs) bs (roundCount key.length bs) md iv = (p, c.2) := by
  have hm : p.length / bs * bs = p.length := Nat.div_mul_cancel (Nat.dvd_of_mod_eq_zero hp)
  have hc := (length_chainEnc_expand hk hbs hiv p md).1.trans hm
  intro c
  rw [chainDec, hc]
  exact chainDecLoop_chainEncLoop (length_encryptBlock_expand hk hbs) (decryptBlock_encryptBlock_expand hk hbs) md _ hiv hm.symm

/-- Each ciphertext block of chainEnc under the schedule of a key (43 R350). -/
theorem blockOf_chainEnc_expand (md : Mode) (p : Bytes) {i : Nat} (hi : i < p.length / bs) :
    let c := (chainEnc p (expand key bs) bs (roundCount key.length bs) md iv).1
    blockOf c bs i = encryptBlock (roundKeyOf (expand key bs) bs) (roundCount key.length bs)
      (chainXor md (blockOf p bs i) (chainValue md iv c bs i)) :=
  (chainEncLoop_blocks (length_encryptBlock_expand hk hbs) md _ hiv (Nat.div_mul_le_self _ _)).1 i hi

end Expanded

/-- Settles O43: each block is undone under the chain value it was made with. -/
theorem chainRoundTrip : Obligations.ChainRoundTrip := fun _ _ _ _ md hk hbs hp hiv =>
  chainDec_chainEnc_expand hk hbs hiv hp md

/-- Settles O44: up to block j-1 the chain values agree with the blocks; encBlock and the xor with the common chain value can
be undone, so different blocks j stay different. -/
theorem ecbDeterminismAndCbcDiffusion : Obligations.EcbDeterminismAndCbcDiffusion := by
  intro key p q iv bs hk hbs hp hq hiv w nr c
  have hblock (md : Mode) (d : Bytes) {i : Nat} (hi : i < d.length / bs) := blockOf_chainEnc_expand hk hbs hiv md d hi
  refine ⟨fun i j hi hj heq => ?_, fun j hj heq hne => ?_⟩
  · exact (hblock .ecb p hi).trans (heq ▸ (hblock .ecb p hj).symm)
  have hagree : ∀ i, i < j → blockOf (c .cbc p) bs i = blockOf (c .cbc q) bs i := by
    intro i
    induction i using Nat.strong_induction_on with
    | _ i ih =>
      intro hi
      rw [hblock .cbc p (by omega), hblock .cbc q (by rw [hq]; omega), heq i hi,
        chainValue_congr fun k hki => ih k hki (by omega)]
  refine ⟨hagree, fun hsame => hne ?_⟩
  have hsize : (j + 1) * bs ≤ p.length := (Nat.le_div_iff_mul_le (by have := hbs.sixteen_le; omega)).mp hj
  have hprev : (chainValue .cbc iv (c .cbc q) bs j).length = bs := by
    refine length_chainValue hiv ?_
    rw [(length_chainEnc_expand hk hbs hiv q .cbc).1, hq]
    exact Nat.mul_le_mul_right _ hj.le
  rw [hblock .cbc p hj, hblock .cbc q (hq ▸ hj), chainValue_congr hagree] at hsame
  exact eq_of_encryptBlock_chainXor_eq hk hbs (length_blockOf hsize) (length_blockOf (hq ▸ hsize)) hprev hsame

/-! ## Padding and unpadding (44_padding R403, R410 to R413) -/

theorem padCount_pos {len bs : Nat} (hbs : 0 < bs) : 0 < padCount len bs :=
  Nat.sub_pos_of_lt (Nat.mod_lt _ hbs)

theorem padCount_lt_256 {len bs : Nat} (hbs : LegalSize bs) : padCount len bs < 256 := by
  have hcap := hbs.le_blockCap
  simp only [padCount, blockCap] at *; omega

theorem add_padCount_mod {len bs : Nat} (hbs : LegalSize bs) : (len + padCount len bs) % bs = 0 := by
  unfold padCount
  rcases hbs with rfl | rfl | rfl <;> omega

/-- What a padded input holds is whole blocks. -/
theorem length_padBytes_mod {d : Bytes} {bs : Nat} {p : Scheme} (hbs : LegalSize bs) (filler : Nat → Byte)
    (hnone : p = .none → d.length % bs = 0) : (padBytes d bs filler p).length % bs = 0 := by
  have hpos := padCount_pos (len := d.length) (bs := bs) (by have := hbs.sixteen_le; omega)
  have hcount := add_padCount_mod (len := d.length) hbs
  have hpred : padCount d.length bs - 1 + 1 = padCount d.length bs := by omega
  cases p with
  | zero =>
    simp only [padBytes, List.length_append, List.length_replicate]
    rwa [Nat.add_mod_mod]
  | none => exact hnone rfl
  | pkcs7 => simpa [padBytes] using hcount
  | ansix923 => simpa [padBytes, hpred] using hcount
  | iso10126 => simpa [padBytes, hpred] using hcount

/-- A counted scheme's unpadding removes the `n` bytes of which the last says `n`. -/
theorem unpadCounted_append {d x : Bytes} {n : Nat} (hx : x.length + 1 = n) (hn : n < 256) :
    unpadCounted (d ++ x ++ [BitVec.ofNat 8 n]) = some d := by
  have hcount : (BitVec.ofNat 8 n).toNat = n := Nat.mod_eq_of_lt hn
  have hlen : (d ++ x ++ [BitVec.ofNat 8 n]).length = d.length + n := by simp; omega
  rw [unpadCounted, List.getLast?_concat]
  simp only [hcount, hlen]
  rw [if_neg (by omega), Nat.add_sub_cancel, List.append_assoc, List.take_left]

theorem zeroRun_replicate_append (k j : Nat) (d : Bytes) : zeroRun (j + k) (List.replicate k 0 ++ d) = zeroRun j d + k := by
  induction k with
  | zero => rfl
  | succ k ih => rw [List.replicate_succ, List.cons_append, ← Nat.add_assoc, zeroRun, if_pos rfl, ih, Nat.add_assoc]

theorem zeroRun_of_head?_ne (j : Nat) {d : Bytes} (h : d.head? ≠ some 0) : zeroRun j d = 0 := by
  cases j with
  | zero => rfl
  | succ j =>
    cases d with
    | nil => rfl
    | cons b d => exact if_neg fun hb => h (congrArg some hb)

/-- Unpadding undoes padding, but for Zero on data that ends in 0x00 (R413). -/
theorem unpadBytes_padBytes {d : Bytes} {bs : Nat} {p : Scheme} (hbs : LegalSize bs) (filler : Nat → Byte)
    (hzero : p = .zero → d.getLast? ≠ some 0) : unpadBytes (padBytes d bs filler p) bs p = some d := by
  have hpos := padCount_pos (len := d.length) (bs := bs) (by have := hbs.sixteen_le; omega)
  have hlt := padCount_lt_256 (len := d.length) hbs
  have hpred : padCount d.length bs - 1 + 1 = padCount d.length bs := by omega
  cases p with
  | zero =>
    obtain ⟨j, hj⟩ := Nat.exists_eq_add_of_le'
      (Nat.mod_lt (bs - d.length % bs) (show 0 < bs by have := hbs.sixteen_le; omega)).le
    have hrun := zeroRun_replicate_append ((bs - d.length % bs) % bs) j d.reverse
    rw [← hj, zeroRun_of_head?_ne j (by rw [List.head?_reverse]; exact hzero rfl), Nat.zero_add] at hrun
    rw [padBytes, unpadBytes, List.reverse_append, List.reverse_replicate, hrun, List.length_append, List.length_replicate,
      Nat.add_sub_cancel, List.take_left]
  | none => rfl
  | pkcs7 =>
    rw [padBytes, ← hpred, List.replicate_succ', hpred, ← List.append_assoc]
    exact unpadCounted_append (by rw [List.length_replicate, hpred]) hlt
  | ansix923 => exact unpadCounted_append (by rw [List.length_replicate, hpred]) hlt
  | iso10126 => exact unpadCounted_append (by rw [List.length_map, List.length_range, hpred]) hlt

/-! ## The checks of ENCRYPT and DECRYPT, run in order (60 R509) -/

/-- A command that ends with the first error of its checks, or leaves `t`. -/
def checked (checks : List (Bool × ErrCode)) (s t : State) : Result :=
  .next (if firstError checks = .ok then t else s.failed (firstError checks))

theorem checked_cons {P : Prop} [Decidable P] {b : Bool} {c : ErrCode} {rest : List (Bool × ErrCode)} {s t : State}
    {r : Result} (hb : b = true ↔ P) (hc : c ≠ .ok) (hr : r = checked rest s t) :
    (if P then raise c s else r) = checked ((b, c) :: rest) s t := by
  subst hr
  by_cases h : P
  · rw [if_pos h, checked, firstError, if_pos (hb.mpr h), if_neg hc, raise_eq]
  · rw [if_neg h, checked, checked, firstError, if_neg (mt hb.mp h)]

theorem badSize_iff (bs : Nat) : badSize bs = true ↔ ¬ LegalSize bs := by
  simp [badSize, LegalSize, and_assoc]

/-- chainEnc's result in ENCRYPT (43 R360). -/
def State.encryption (s : State) (bs : Nat) : Bytes × Bytes :=
  chainEnc (padBytes s.inData bs s.filler s.cfgPad) (expand s.cipherKey bs) bs (roundCount s.cfgKlen.toNat bs) s.cfgMode
    (s.ivBytes bs)

/-- chainDec's result in DECRYPT (43 R362). -/
def State.decryption (s : State) (bs : Nat) : Bytes × Bytes :=
  chainDec s.inData (expand s.cipherKey bs) bs (roundCount s.cfgKlen.toNat bs) s.cfgMode (s.ivBytes bs)

/-- `s` after ENCRYPT or DECRYPT completed with the result `out`, the chain value `last` and `n` random bytes drawn. -/
def State.cipherDone (s : State) (bs n : Nat) (out last : Bytes) : State :=
  ((((s.setMem (s.cipherMem (expand s.cipherKey bs) out last)).setSchedule bs (roundCount s.cfgKlen.toNat bs)).setOutLen
    out.length).drawRng n).complete .ok

theorem finish_storeCipher (s : State) (bs n : Nat) (out last : Bytes) :
    finish ((s.storeCipher (expand s.cipherKey bs) bs (roundCount s.cfgKlen.toNat bs) out last).drawRng n) =
      .next (s.cipherDone bs n out last) := by
  rw [storeCipher_eq]; rfl

theorem exec_encrypt (s : State) (bs : Nat) : exec (.encrypt bs) s = checked (checksOf s (.encrypt bs)) s
    (s.cipherDone bs (fillerCount s.inLen.toNat bs s.cfgPad) (s.encryption bs).1 (s.encryption bs).2) :=
  checked_cons (by simp) (by decide) <| checked_cons (badSize_iff bs) (by decide) <|
    checked_cons (by simp) (by decide) <| checked_cons (by simp) (by decide) <| checked_cons (by simp) (by decide) <|
    finish_storeCipher s bs _ _ _

theorem exec_decrypt (s : State) (bs : Nat) : exec (.decrypt bs) s = checked (checksOf s (.decrypt bs)) s
    (s.cipherDone bs 0 ((unpadBytes (s.decryption bs).1 bs s.cfgPad).getD []) (s.decryption bs).2) := by
  refine checked_cons (by simp) (by decide) <| checked_cons (badSize_iff bs) (by decide) <|
    checked_cons (by simp) (by decide) <| checked_cons (by simp) (by decide) <| checked_cons (by simp) (by decide) ?_
  have hpad : badPadding (s.decrypted bs) bs s.cfgPad = (unpadBytes (s.decryption bs).1 bs s.cfgPad).isNone := rfl
  rw [hpad]
  cases hu : unpadBytes (s.decryption bs).1 bs s.cfgPad with
  | none =>
    rw [State.decryption] at hu ⊢
    simp only [hu]
    rfl
  | some u =>
    rw [State.decryption] at hu ⊢
    simp only [hu]
    exact finish_storeCipher s bs 0 _ _

/-- The operands with which ENCRYPT and DECRYPT get past the checks they share (60 R509). -/
structure State.CipherReady (s : State) (bs : Nat) : Prop where
  valid : s.cfgValid = true
  size : LegalSize bs
  fits : s.inLen.toNat ≤ s.inCap
  iv : s.cfgMode = .cbc → s.ivLen.toNat = bs

theorem firstError_cons_eq_ok {b : Bool} {c : ErrCode} {rest : List (Bool × ErrCode)} (hc : c ≠ .ok) :
    firstError ((b, c) :: rest) = .ok ↔ b = false ∧ firstError rest = .ok := by
  cases b with
  | false => simp [firstError]
  | true => simp [firstError, hc]

theorem badSize_eq_false_iff (bs : Nat) : badSize bs = false ↔ LegalSize bs := by
  rw [← Bool.not_eq_true, badSize_iff, Decidable.not_not]

/-- The four checks that ENCRYPT and DECRYPT share, before the checks `rest` of the one. -/
theorem firstError_shared (s : State) (bs : Nat) (rest : List (Bool × ErrCode)) :
    firstError ((!s.cfgValid, .invalidKeySize) :: (badSize bs, .invalidBlockSize) ::
      (decide (s.inCap < s.inLen.toNat), .lengthOverflow) ::
      (s.cfgMode == .cbc && s.ivLen.toNat != bs, .invalidIVLength) :: rest) = .ok ↔
    s.CipherReady bs ∧ firstError rest = .ok := by
  rw [firstError_cons_eq_ok (by decide), firstError_cons_eq_ok (by decide), firstError_cons_eq_ok (by decide),
    firstError_cons_eq_ok (by decide), badSize_eq_false_iff]
  constructor
  · rintro ⟨hv, hbs, hfits, hiv, hrest⟩
    exact ⟨⟨by simpa using hv, hbs, by simpa using hfits, by simpa using hiv⟩, hrest⟩
  · rintro ⟨⟨hv, hbs, hfits, hiv⟩, hrest⟩
    exact ⟨by simpa using hv, hbs, by simpa using hfits, by simpa using hiv, hrest⟩

theorem firstError_encrypt (s : State) (bs : Nat) : firstError (checksOf s (.encrypt bs)) = .ok ↔
    s.CipherReady bs ∧ (s.cfgPad = .none → s.inLen.toNat % bs = 0) := by
  rw [checksOf, firstError_shared, firstError_cons_eq_ok (by decide)]
  simp [firstError]

theorem firstError_decrypt (s : State) (bs : Nat) : firstError (checksOf s (.decrypt bs)) = .ok ↔
    s.CipherReady bs ∧ s.inLen.toNat % bs = 0 ∧ ∃ u, unpadBytes (s.decryption bs).1 bs s.cfgPad = some u := by
  have hpad : badPadding (s.decrypted bs) bs s.cfgPad = (unpadBytes (s.decryption bs).1 bs s.cfgPad).isNone := rfl
  rw [checksOf, firstError_shared, firstError_cons_eq_ok (by decide), firstError_cons_eq_ok (by decide), hpad]
  simp [firstError, Option.isSome_iff_exists]

theorem exec_encrypt_of_ready {s : State} {bs : Nat} (hs : s.CipherReady bs)
    (hnone : s.cfgPad = .none → s.inLen.toNat % bs = 0) : exec (.encrypt bs) s =
      .next (s.cipherDone bs (fillerCount s.inLen.toNat bs s.cfgPad) (s.encryption bs).1 (s.encryption bs).2) := by
  rw [exec_encrypt, checked, if_pos ((firstError_encrypt s bs).mpr ⟨hs, hnone⟩)]

theorem exec_decrypt_of_ready {s : State} {bs : Nat} {u : Bytes} (hs : s.CipherReady bs) (hal : s.inLen.toNat % bs = 0)
    (hu : unpadBytes (s.decryption bs).1 bs s.cfgPad = some u) :
    exec (.decrypt bs) s = .next (s.cipherDone bs 0 u (s.decryption bs).2) := by
  rw [exec_decrypt, checked, if_pos ((firstError_decrypt s bs).mpr ⟨hs, hal, u, hu⟩), hu, Option.getD_some]

/-! ## What a completed ENCRYPT or DECRYPT leaves (43 R352, R360, R362) -/

/-- Above RK and CHAIN, OUT holds the result. -/
theorem readBytes_cipherMem_out {s : State} {w out last : Bytes} (hlast : last.length ≤ blockCap) :
    (s.cipherMem w out last).readBytes outBase out.length = out := by
  refine (Memory.readBytes_congr (m := (s.mem.writeBytes rkBase w).writeBytes outBase out) fun k _ => ?_).trans
    (Memory.readBytes_writeBytes _ _ _)
  unfold State.cipherMem
  split
  · exact Memory.read_writeBytes_outside _ (.inr (by simp only [outBase, chainBase, blockCap] at *; omega))
  · rfl

theorem readBytes_cipherMem_chain {s : State} {w out last : Bytes} (hcbc : s.cfgMode = .cbc) :
    (s.cipherMem w out last).readBytes chainBase last.length = last := by
  rw [State.cipherMem, if_pos hcbc]
  exact Memory.readBytes_writeBytes _ _ _

/-- The result, the schedule, the chain value and the frame of a completed ENCRYPT or DECRYPT, where KLEN is legal. -/
theorem cipherDone_result {s : State} {bs len : Nat} {out last : Bytes} (hk : LegalSize s.cfgKlen.toNat) (hbs : LegalSize bs)
    (hlen : out.length = len) (hword : len < 2 ^ 32) (hlast : last.length = bs) (n : Nat) :
    let w := expand s.cipherKey bs
    let t := s.cipherDone bs n out last
    CompletedWith .ok t ∧ t.outLen.toNat = len ∧ t.outData = out ∧ t.mem.readBytes rkBase w.length = w ∧ t.rkValid = true ∧
      t.rkBs.toNat = bs ∧ t.rkNr.toNat = roundCount s.cfgKlen.toNat bs ∧
      (s.cfgMode = .cbc → t.mem.readBytes chainBase bs = last) ∧
      (∀ x, (x < rkBase ∨ rkBase + w.length ≤ x) → (x < outBase ∨ outBase + len ≤ x) →
        (s.cfgMode = .cbc → x < chainBase ∨ chainBase + bs ≤ x) → t.mem.read x = s.mem.read x) ∧
      SlotSame s t ∧ LengthsSame s t ∧ ShellSame s t ∧ t.rngDraws = s.rngDraws + n := by
  intro w t
  subst hlen hlast
  have hcap := hbs.le_blockCap
  have hrk : w.length ≤ rkCap := (length_expand_cipherKey hk hbs).trans_le (scheduleLength_le hbs)
  have houtLen : t.outLen.toNat = out.length := Nat.mod_eq_of_lt hword
  refine ⟨⟨rfl, rfl, rfl⟩, houtLen, ?_, readBytes_cipherMem_rk hrk hcap, rfl, toNat_ofNat_of_legalSize hbs,
    toNat_ofNat_roundCount _ _, readBytes_cipherMem_chain, fun _ => read_cipherMem_outside, ⟨rfl, rfl, rfl, rfl, rfl⟩,
    ⟨rfl, rfl⟩, ⟨rfl, rfl, rfl, rfl, rfl, rfl, rfl, rfl, rfl⟩, rfl⟩
  rw [State.outData, houtLen]
  exact readBytes_cipherMem_out hcap

/-- The padded input of a block within its capacity fits OUT, so that its length fits a register. -/
theorem length_padded_lt {s : State} {bs : Nat} (hmem : s.MemOk) (hs : s.CipherReady bs) :
    (padBytes s.inData bs s.filler s.cfgPad).length < 2 ^ 32 := by
  have hcap := hs.size.le_blockCap
  have hmax := hmem.capMax
  have hfits := hs.fits
  have hpad := length_padBytes_le s.inData (bs := bs) (by have := hs.size.sixteen_le; omega) s.filler s.cfgPad
  rw [State.length_inData] at hpad
  simp only [Config.inCapMax, blockCap] at *
  omega

section Lengths

variable {s : State} {bs : Nat} (hk : LegalSize s.cfgKlen.toNat) (hbs : LegalSize bs)
include hk hbs

theorem length_encryption (hnone : s.cfgPad = .none → s.inLen.toNat % bs = 0) :
    (s.encryption bs).1.length = (padBytes s.inData bs s.filler s.cfgPad).length ∧ (s.encryption bs).2.length = bs := by
  rw [← State.length_cipherKey] at hk
  rw [← State.length_inData] at hnone
  obtain ⟨hout, hlast⟩ := length_chainEnc_expand hk hbs (s.length_ivBytes bs) (padBytes s.inData bs s.filler s.cfgPad) s.cfgMode
  rw [Nat.div_mul_cancel (Nat.dvd_of_mod_eq_zero (length_padBytes_mod hbs s.filler hnone)), State.length_cipherKey] at hout
  rw [State.length_cipherKey] at hlast
  exact ⟨hout, hlast⟩

theorem length_decryption (hal : s.inLen.toNat % bs = 0) :
    (s.decryption bs).1.length = s.inLen.toNat ∧ (s.decryption bs).2.length = bs := by
  rw [← State.length_cipherKey] at hk
  obtain ⟨hout, hlast⟩ := length_chainDec_expand hk hbs (s.length_ivBytes bs) s.inData s.cfgMode
  rw [State.length_inData, Nat.div_mul_cancel (Nat.dvd_of_mod_eq_zero hal), State.length_cipherKey] at hout
  rw [State.length_cipherKey] at hlast
  exact ⟨hout, hlast⟩

end Lengths

/-- Settles O48: past its checks ENCRYPT stores the chained encryption of the padded input, which has its length. -/
theorem encryptResult : Obligations.EncryptResult := by
  intro s bs hinv hv hbs hfits hiv hnone w nr p r
  have hready : s.CipherReady bs := ⟨hv, hbs, hfits, hiv⟩
  have hk := hinv.slot.klen hv
  obtain ⟨hout, hlast⟩ := length_encryption hk hbs hnone
  exact ⟨_, exec_encrypt_of_ready hready hnone,
    cipherDone_result hk hbs hout (length_padded_lt hinv.mem hready) hlast _⟩

/-- Settles O49: past its checks DECRYPT stores the unpadded chained decryption, which is no longer than the input. -/
theorem decryptResult : Obligations.DecryptResult := by
  intro s bs u hinv hv hbs hfits hiv hal w nr r hu
  have hk := hinv.slot.klen hv
  obtain ⟨hout, hlast⟩ := length_decryption hk hbs hal
  have hword : u.length < 2 ^ 32 := ((length_unpadBytes_le hu).trans_eq hout).trans_lt s.inLen.isLt
  exact ⟨_, exec_decrypt_of_ready ⟨hv, hbs, hfits, hiv⟩ hal hu, cipherDone_result hk hbs rfl hword hlast 0⟩

/-! ## DECRYPT of what ENCRYPT gave (43 R356, 44 R413) -/

theorem SlotSame.trans {s t u : State} (h : SlotSame s t) (h' : SlotSame t u) : SlotSame s u :=
  ⟨h'.ckey.trans h.ckey, h'.valid.trans h.valid, h'.mode.trans h.mode, h'.pad.trans h.pad, h'.klen.trans h.klen⟩

/-- Checks that end without an error have let the command through. -/
theorem checked_ok {checks : List (Bool × ErrCode)} {s t r : State} (h : checked checks s t = .next r)
    (hok : r.errcode = .ok) : firstError checks = .ok ∧ r = t := by
  have hr := next_inj.mp h
  by_cases hc : firstError checks = .ok
  · exact ⟨hc, by rw [← hr, if_pos hc]⟩
  · rw [if_neg hc] at hr
    subst hr
    exact absurd hok hc

/-- A block with the same cipher and IV that holds a ciphertext in IN recovers the padded input. -/
theorem decryption_of_encryption {s u : State} {bs : Nat} (hk : LegalSize s.cfgKlen.toNat) (hbs : LegalSize bs)
    (hnone : s.cfgPad = .none → s.inLen.toNat % bs = 0) (hslot : SlotSame s u) (hiv : u.ivBytes bs = s.ivBytes bs)
    (hdata : u.inData = (s.encryption bs).1) :
    u.decryption bs = (padBytes s.inData bs s.filler s.cfgPad, (s.encryption bs).2) := by
  rw [← State.length_cipherKey] at hk
  rw [← State.length_inData] at hnone
  have hround := chainDec_chainEnc_expand hk hbs (s.length_ivBytes bs) (length_padBytes_mod hbs s.filler hnone) s.cfgMode
  rw [State.length_cipherKey] at hround
  rw [State.decryption, hdata, cipherKey_of_same hslot, hslot.klen, hslot.mode, hiv]
  exact hround

/-- Settles O50: DECRYPT recovers the padded input, of which unpadding leaves the message. -/
theorem encryptThenDecryptRestoresMessage : Obligations.EncryptThenDecryptRestoresMessage := by
  intro s t u bs hinv hv hbs hrun hok hzero hslot _ hlen hfits hdata hivLen hivBytes
  have hk := hinv.slot.klen hv
  obtain ⟨hchecks, rfl⟩ := checked_ok ((exec_encrypt s bs).symm.trans hrun) hok
  obtain ⟨hready, hnone⟩ := (firstError_encrypt s bs).mp hchecks
  obtain ⟨hout, hlast⟩ := length_encryption hk hbs hnone
  obtain ⟨-, houtLen, houtData, -, -, -, -, -, hframe, hslot', hlengths, -, -⟩ :=
    cipherDone_result hk hbs hout (length_padded_lt hinv.mem hready) hlast (fillerCount s.inLen.toNat bs s.cfgPad)
  have hsame := hslot'.trans hslot
  have hiv : u.ivBytes bs = s.ivBytes bs := Memory.readBytes_congr fun k hk => by
    have hcap := hbs.le_blockCap
    simp only [blockCap] at hcap
    rw [hivBytes k hk, hframe] <;> simp only [ivBase, rkBase, outBase, chainBase] <;> omega
  have hdec := decryption_of_encryption hk hbs hnone hsame hiv (hdata.trans houtData)
  have hready' : u.CipherReady bs :=
    ⟨hsame.valid.trans hv, hbs, hfits, fun hcbc => by rw [hivLen, hlengths.ivLen, hready.iv (hsame.mode ▸ hcbc)]⟩
  have hal : u.inLen.toNat % bs = 0 := by
    rw [hlen, houtLen]
    exact length_padBytes_mod hbs s.filler (by rwa [State.length_inData])
  have hunpad : unpadBytes (u.decryption bs).1 bs u.cfgPad = some s.inData := by
    rw [hdec, hsame.pad]
    exact unpadBytes_padBytes hbs s.filler hzero
  have hlast' : (u.decryption bs).2.length = bs := by rw [hdec]; exact hlast
  obtain ⟨hdone, hvLen, hvData, -⟩ :=
    cipherDone_result (s := u) (by rwa [hsame.klen]) hbs s.length_inData s.inLen.isLt hlast' 0
  exact ⟨_, exec_decrypt_of_ready hready' hal hunpad, hdone.errcode, BitVec.eq_of_toNat_eq hvLen, hvData⟩

/-! ## What the results depend on (43 R364, 10_state R72) -/

/-- Two blocks agree on what ENCRYPT and DECRYPT of block size `bs` read. -/
structure SameOperands (bs : Nat) (s s' : State) : Prop where
  valid : s'.cfgValid = s.cfgValid
  mode : s'.cfgMode = s.cfgMode
  pad : s'.cfgPad = s.cfgPad
  klen : s'.cfgKlen = s.cfgKlen
  key : s'.cipherKey = s.cipherKey
  inCap : s'.inCap = s.inCap
  inLen : s'.inLen = s.inLen
  input : s'.inData = s.inData
  rng : s'.rngDraws = s.rngDraws
  iv : s.cfgMode = .cbc → s'.ivLen = s.ivLen ∧ s'.ivBytes bs = s.ivBytes bs

/-- Two chained results are the same bytes and, in CBC, the same chain value. -/
def SameChained (md : Mode) (r r' : Bytes × Bytes) : Prop := r'.1 = r.1 ∧ (md = .cbc → r'.2 = r.2)

/-- ECB gives the same blocks for every IV. -/
theorem chainEncLoop_ecb_fst (enc : Bytes → Bytes) (bs m : Nat) (iv iv' p : Bytes) :
    (chainEncLoop enc bs .ecb m iv' p).1 = (chainEncLoop enc bs .ecb m iv p).1 := by
  induction m generalizing p with
  | zero => rfl
  | succ m ih => rw [chainEncLoop, chainEncLoop, ih]

theorem chainDecLoop_ecb_fst (dec : Bytes → Bytes) (bs m : Nat) (iv iv' c : Bytes) :
    (chainDecLoop dec bs .ecb m iv' c).1 = (chainDecLoop dec bs .ecb m iv c).1 := by
  induction m generalizing c with
  | zero => rfl
  | succ m ih => rw [chainDecLoop, chainDecLoop, ih]

theorem sameChained_chainEnc {md : Mode} {iv iv' : Bytes} (hiv : md = .cbc → iv' = iv) (p w : Bytes) (bs nr : Nat) :
    SameChained md (chainEnc p w bs nr md iv) (chainEnc p w bs nr md iv') := by
  cases md with
  | ecb => exact ⟨chainEncLoop_ecb_fst _ _ _ _ _ _, nofun⟩
  | cbc => rw [hiv rfl]; exact ⟨rfl, fun _ => rfl⟩

theorem sameChained_chainDec {md : Mode} {iv iv' : Bytes} (hiv : md = .cbc → iv' = iv) (c w : Bytes) (bs nr : Nat) :
    SameChained md (chainDec c w bs nr md iv) (chainDec c w bs nr md iv') := by
  cases md with
  | ecb => exact ⟨chainDecLoop_ecb_fst _ _ _ _ _ _, nofun⟩
  | cbc => rw [hiv rfl]; exact ⟨rfl, fun _ => rfl⟩

section Operands

variable {s s' : State} {bs : Nat} (h : SameOperands bs s s')
include h

theorem SameOperands.encryption : SameChained s.cfgMode (s.encryption bs) (s'.encryption bs) := by
  have hfill : s'.filler = s.filler := funext fun k => by rw [State.filler, State.filler, h.rng]
  rw [State.encryption, State.encryption, h.input, h.pad, h.key, h.klen, h.mode, hfill]
  exact sameChained_chainEnc (fun hcbc => (h.iv hcbc).2) _ _ _ _

theorem SameOperands.decryption : SameChained s.cfgMode (s.decryption bs) (s'.decryption bs) := by
  rw [State.decryption, State.decryption, h.input, h.key, h.klen, h.mode]
  exact sameChained_chainDec (fun hcbc => (h.iv hcbc).2) _ _ _ _

theorem SameOperands.checksOf_eq {i : Instr} (hi : i.IsCipher bs) : checksOf s' i = checksOf s i := by
  have hiv : (s.cfgMode == .cbc && s'.ivLen.toNat != bs) = (s.cfgMode == .cbc && s.ivLen.toNat != bs) := by
    cases hmode : s.cfgMode with
    | ecb => rfl
    | cbc => rw [(h.iv hmode).1]
  have hdec : s'.decrypted bs = s.decrypted bs := h.decryption.1
  obtain rfl | rfl := hi <;>
    simp only [checksOf, h.valid, h.inCap, h.inLen, h.mode, h.pad, hiv, hdec]

end Operands

/-- Two wide writes of the same bytes agree where they wrote, and elsewhere where the memories did. -/
theorem Memory.read_writeBytes_congr {m m' : Memory} {a x : Nat} {b : Bytes}
    (h : a ≤ x ∧ x < a + b.length ∨ m'.read x = m.read x) : (m'.writeBytes a b).read x = (m.writeBytes a b).read x := by
  rw [Memory.read_writeBytes, Memory.read_writeBytes]
  split
  · rfl
  · next hout => exact h.resolve_left hout

/-- The bytes that a completed ENCRYPT or DECRYPT wrote are its results, whatever the buffers held before. -/
theorem read_cipherMem_congr {s s' : State} {w out last last' : Bytes} {x : Nat} (hmode : s'.cfgMode = s.cfgMode)
    (hlast : s.cfgMode = .cbc → last' = last)
    (hx : (rkBase ≤ x ∧ x < rkBase + w.length) ∨ (outBase ≤ x ∧ x < outBase + out.length) ∨
      (s.cfgMode = .cbc ∧ chainBase ≤ x ∧ x < chainBase + last.length)) :
    (s'.cipherMem w out last').read x = (s.cipherMem w out last).read x := by
  rw [State.cipherMem, State.cipherMem, hmode]
  split
  · next hcbc =>
    rw [hlast hcbc]
    refine Memory.read_writeBytes_congr ?_
    obtain hrk | hout | ⟨-, hchain⟩ := hx
    · exact .inr (Memory.read_writeBytes_congr (.inr (Memory.read_writeBytes_congr (.inl hrk))))
    · exact .inr (Memory.read_writeBytes_congr (.inl hout))
    · exact .inl hchain
  · next hecb =>
    obtain hrk | hout | ⟨hcbc, -⟩ := hx
    · exact Memory.read_writeBytes_congr (.inr (Memory.read_writeBytes_congr (.inl hrk)))
    · exact Memory.read_writeBytes_congr (.inl hout)
    · exact absurd hcbc hecb

/-- What R364 compares of two completions: the code and OUT_LEN, and without an error the results. -/
def SameResults (s : State) (bs : Nat) (t t' : State) : Prop :=
  t'.errcode = t.errcode ∧ t'.outLen = t.outLen ∧
  (t.errcode = .ok → t'.outData = t.outData ∧ t'.rkInfoWord = t.rkInfoWord ∧ t'.rkValid = t.rkValid ∧
    (LegalSize s.cfgKlen.toNat →
      (∀ k, k < scheduleLength s.cfgKlen.toNat bs → t'.rkByte k = t.rkByte k) ∧
      (s.cfgMode = .cbc → ∀ k, k < bs → t'.chainByte k = t.chainByte k)))

theorem sameResults_cipherDone {s s' : State} {bs : Nat} {out last last' : Bytes} (h : SameOperands bs s s')
    (hbs : LegalSize bs) (hsame : s.cfgMode = .cbc → last' = last) (hlast : LegalSize s.cfgKlen.toNat → last.length = bs)
    (n n' : Nat) : SameResults s bs (s.cipherDone bs n out last) (s'.cipherDone bs n' out last') := by
  have hread {x : Nat} (hx : (rkBase ≤ x ∧ x < rkBase + (expand s.cipherKey bs).length) ∨
      (outBase ≤ x ∧ x < outBase + out.length) ∨ (s.cfgMode = .cbc ∧ chainBase ≤ x ∧ x < chainBase + last.length)) :
      (s'.cipherDone bs n' out last').mem.read x = (s.cipherDone bs n out last).mem.read x := by
    change (s'.cipherMem (expand s'.cipherKey bs) out last').read x = _
    rw [h.key]
    exact read_cipherMem_congr h.mode hsame hx
  have hnr : (s'.cipherDone bs n' out last').rkNr = (s.cipherDone bs n out last).rkNr :=
    congrArg (fun klen : Byte => BitVec.ofNat 4 (roundCount klen.toNat bs)) h.klen
  refine ⟨rfl, rfl, fun _ => ⟨?_, ?_, rfl, fun hk => ⟨fun k hlt => ?_, fun hcbc k hlt => ?_⟩⟩⟩
  · refine Memory.readBytes_congr fun k hlt => hread (.inr (.inl ⟨Nat.le_add_right _ _, ?_⟩))
    exact Nat.add_lt_add_left (hlt.trans_le (toNat_ofNat_le out.length)) _
  · rw [State.rkInfoWord, hnr]
    rfl
  · rw [← length_expand_cipherKey hk hbs] at hlt
    exact hread (.inl ⟨Nat.le_add_right _ _, Nat.add_lt_add_left hlt _⟩)
  · rw [← hlast hk] at hlt
    exact hread (.inr (.inr ⟨hcbc, Nat.le_add_right _ _, Nat.add_lt_add_left hlt _⟩))

/-- Two commands with the same checks fail alike, so that only their completions without an error are to be compared. -/
theorem sameResults_checked {checks : List (Bool × ErrCode)} {s s' done done' t t' : State} {bs : Nat}
    (ht : checked checks s done = .next t) (ht' : checked checks s' done' = .next t')
    (hdone : firstError checks = .ok → SameResults s bs done done') : SameResults s bs t t' := by
  have hrun := next_inj.mp ht
  have hrun' := next_inj.mp ht'
  by_cases hc : firstError checks = .ok
  · rw [if_pos hc] at hrun hrun'
    rw [← hrun, ← hrun']
    exact hdone hc
  · rw [if_neg hc] at hrun hrun'
    rw [← hrun, ← hrun']
    exact ⟨rfl, rfl, fun hok => absurd hok hc⟩

theorem sameResults_encrypt {s s' t t' : State} {bs : Nat} (h : SameOperands bs s s')
    (ht : exec (.encrypt bs) s = .next t) (ht' : exec (.encrypt bs) s' = .next t') : SameResults s bs t t' := by
  obtain ⟨hout, hlast⟩ := h.encryption
  rw [exec_encrypt] at ht ht'
  rw [h.checksOf_eq (.inl rfl), hout] at ht'
  refine sameResults_checked ht ht' fun hc => ?_
  obtain ⟨hready, hnone⟩ := (firstError_encrypt s bs).mp hc
  exact sameResults_cipherDone h hready.size hlast (fun hk => (length_encryption hk hready.size hnone).2) _ _

theorem sameResults_decrypt {s s' t t' : State} {bs : Nat} (h : SameOperands bs s s')
    (ht : exec (.decrypt bs) s = .next t) (ht' : exec (.decrypt bs) s' = .next t') : SameResults s bs t t' := by
  obtain ⟨hout, hlast⟩ := h.decryption
  rw [exec_decrypt] at ht ht'
  rw [h.checksOf_eq (.inr rfl), hout, h.pad] at ht'
  refine sameResults_checked ht ht' fun hc => ?_
  obtain ⟨hready, hal, -⟩ := (firstError_decrypt s bs).mp hc
  exact sameResults_cipherDone h hready.size hlast (fun hk => (length_decryption hk hready.size hal).2) _ _

/-- Settles O51: the same operands give the same checks and the same chained result, and a completion writes nothing else into
the bytes compared. -/
theorem cipherDependsOnlyOnOperands : Obligations.CipherDependsOnlyOnOperands := by
  intro s s' t t' bs i hi hvalid hmode hpad hklen hkey hinCap hinLen hin hrng hiv ht ht'
  have hcipherKey : s'.cipherKey = s.cipherKey := by
    rw [State.cipherKey, State.cipherKey, hklen]
    exact List.map_congr_left fun k hk => hkey k (List.mem_range.mp hk)
  have hinput : s'.inData = s.inData := by
    rw [State.inData, State.inData, hinLen]
    exact Memory.readBytes_congr hin
  have h : SameOperands bs s s' := ⟨hvalid, hmode, hpad, hklen, hcipherKey, hinCap, hinLen, hinput, hrng,
    fun hcbc => ⟨(hiv hcbc).1, Memory.readBytes_congr (hiv hcbc).2⟩⟩
  obtain rfl | rfl := hi
  · exact sameResults_encrypt h ht ht'
  · exact sameResults_decrypt h ht ht'

end Sys2Proof.Machine

/-! PROOFS. The family 44_padding: what PAD and UNPAD leave in OUT, and unpadding as the inverse of padding. -/

namespace Sys2Proof.Machine

/-- Settles O47: for Zero the data must not end in 0x00, for None its alignment is not needed. -/
theorem paddingRoundTrip : Obligations.PaddingRoundTrip := by
  intro d bs filler hbs
  refine ⟨fun p hp => ?_, fun hlast => ?_, fun _ => ?_⟩
  · exact unpadBytes_padBytes hbs filler (by rintro rfl; simp at hp)
  · exact unpadBytes_padBytes hbs filler fun _ => hlast
  · exact unpadBytes_padBytes hbs filler nofun

/-! ## A command that completes with a result in OUT (44 R420, R422, 10_state R70) -/

/-- A command succeeded, drew `n` random bytes and wrote, beside the bookkeeping, only its result `out` to OUT and OUT_LEN. -/
structure WroteOnlyOut (out : Bytes) (n : Nat) (s t : State) : Prop where
  completed : CompletedWith .ok t
  outLen : t.outLen.toNat = out.length
  outByte : ∀ i, i < out.length → t.outByte i = out.getD i 0
  mem : MemSameOutside outBase out.length s t
  slot : SlotSame s t
  schedule : ScheduleRegsSame s t
  lengths : LengthsSame s t
  shell : ShellSame s t
  rng : t.rngDraws = s.rngDraws + n

theorem wroteOnlyOut_storeOut (s : State) {out : Bytes} (hword : out.length < 2 ^ 32) (n : Nat) :
    WroteOnlyOut out n s (((s.storeOut out).drawRng n).complete .ok) where
  completed := ⟨rfl, rfl, rfl⟩
  outLen := Nat.mod_eq_of_lt hword
  outByte _ hi := Memory.read_writeBytes_inside _ _ hi
  mem _ hx := Memory.read_writeBytes_outside _ hx
  slot := ⟨rfl, rfl, rfl, rfl, rfl⟩
  schedule := ⟨rfl, rfl, rfl⟩
  lengths := ⟨rfl, rfl⟩
  shell := ⟨rfl, rfl, rfl, rfl, rfl, rfl, rfl, rfl, rfl⟩
  rng := rfl

/-- The shared failure changes OUT_LEN and the bookkeeping alone (60 R522). -/
theorem failedWith_failed (c : ErrCode) (s : State) : FailedWith c s (s.failed c) where
  completed := ⟨rfl, rfl, rfl⟩
  outLen := rfl
  mem _ := rfl
  slot := ⟨rfl, rfl, rfl, rfl, rfl⟩
  schedule := ⟨rfl, rfl, rfl⟩
  lengths := ⟨rfl, rfl⟩
  shell := ⟨rfl, rfl, rfl, rfl, rfl, rfl, rfl, rfl, rfl⟩
  rng := rfl

theorem inByte_eq_getD (s : State) {i : Nat} (hi : i < s.inLen.toNat) : s.inByte i = s.inData.getD i 0 :=
  (Memory.getD_readBytes _ _ hi).symm

/-! ## What padBytes appends (44 R400, R410) -/

/-- The bytes that padBytes appends to `len` bytes. -/
def padding (len bs : Nat) (filler : Nat → Byte) : Scheme → Bytes
  | .zero => List.replicate ((bs - len % bs) % bs) 0
  | .none => []
  | .pkcs7 => List.replicate (padCount len bs) (BitVec.ofNat 8 (padCount len bs))
  | .ansix923 => List.replicate (padCount len bs - 1) 0 ++ [BitVec.ofNat 8 (padCount len bs)]
  | .iso10126 => (List.range (padCount len bs - 1)).map filler ++ [BitVec.ofNat 8 (padCount len bs)]

/-- Padding only appends (R414). -/
theorem padBytes_eq (d : Bytes) (bs : Nat) (filler : Nat → Byte) (p : Scheme) :
    padBytes d bs filler p = d ++ padding d.length bs filler p := by
  cases p with
  | none => exact (List.append_nil d).symm
  | zero | pkcs7 => rfl
  | ansix923 | iso10126 => exact List.append_assoc _ _ _

theorem toNat_ofNat_padCount {len bs : Nat} (hbs : LegalSize bs) : (BitVec.ofNat 8 (padCount len bs)).toNat = padCount len bs :=
  Nat.mod_eq_of_lt (padCount_lt_256 hbs)

/-- PAD past its checks: OUT is the input, then the padding (R420). -/
theorem exec_pad {s : State} {p : Scheme} {bs : Nat} (hbs : LegalSize bs) (hmax : s.inCap ≤ Config.inCapMax)
    (hfits : s.inLen.toNat ≤ s.inCap) (hnone : p = .none → s.inLen.toNat % bs = 0) :
    ∃ t, exec (.pad p bs) s = .next t ∧
      WroteOnlyOut (s.inData ++ padding s.inLen.toNat bs s.filler p) (fillerCount s.inLen.toNat bs p) s t := by
  have hpad : padBytes s.inData bs s.filler p = s.inData ++ padding s.inLen.toNat bs s.filler p := by
    rw [padBytes_eq, State.length_inData]
  have hlen := length_padBytes_le s.inData (bs := bs) (by have := hbs.sixteen_le; omega) s.filler p
  have hcap := hbs.le_blockCap
  rw [hpad, State.length_inData] at hlen
  rw [exec, execPad, if_neg (not_not_intro hbs), if_neg (Nat.not_lt.mpr hfits), if_neg (fun h => h.2 (hnone h.1)), hpad]
  exact ⟨_, rfl, wroteOnlyOut_storeOut s (by simp only [Config.inCapMax, blockCap] at *; omega) _⟩

section Padded

variable {s t : State} {p : Bytes} {n : Nat} (h : WroteOnlyOut (s.inData ++ p) n s t)
include h

theorem WroteOnlyOut.outLen_padded : t.outLen.toNat = s.inLen.toNat + p.length := by
  rw [h.outLen, List.length_append, State.length_inData]

theorem WroteOnlyOut.outByte_input {i : Nat} (hi : i < s.inLen.toNat) : t.outByte i = s.inByte i := by
  rw [h.outByte i (by rw [List.length_append, State.length_inData]; omega), inByte_eq_getD s hi,
    List.getD_append _ _ _ _ (by rwa [State.length_inData])]

theorem WroteOnlyOut.outByte_padding {k : Nat} (hk : k < p.length) : t.outByte (s.inLen.toNat + k) = p.getD k 0 := by
  rw [h.outByte _ (by rw [List.length_append, State.length_inData]; omega),
    List.getD_append_right _ _ _ _ (by rw [State.length_inData]; omega), State.length_inData, Nat.add_sub_cancel_left]

end Padded

/-- Padding of one repeated byte. -/
theorem WroteOnlyOut.outByte_replicate {s t : State} {m n i : Nat} {b : Byte}
    (h : WroteOnlyOut (s.inData ++ List.replicate m b) n s t) (hlo : s.inLen.toNat ≤ i) (hhi : i < s.inLen.toNat + m) :
    t.outByte i = b := by
  obtain ⟨k, rfl⟩ := Nat.exists_eq_add_of_le hlo
  have hk : k < m := by omega
  rw [h.outByte_padding (by rwa [List.length_replicate]), List.getD_replicate _ hk]

/-- Padding that ends in its count, of which the `n - 1` bytes before it are `x`. -/
theorem WroteOnlyOut.counted {s t : State} {x : Bytes} {bs m : Nat} (hbs : LegalSize bs)
    (hx : x.length = padCount s.inLen.toNat bs - 1)
    (h : WroteOnlyOut (s.inData ++ (x ++ [BitVec.ofNat 8 (padCount s.inLen.toNat bs)])) m s t) :
    t.outLen.toNat = s.inLen.toNat + padCount s.inLen.toNat bs ∧
    (∀ k, k < padCount s.inLen.toNat bs - 1 → t.outByte (s.inLen.toNat + k) = x.getD k 0) ∧
    (t.outByte (s.inLen.toNat + padCount s.inLen.toNat bs - 1)).toNat = padCount s.inLen.toNat bs := by
  have hpos := padCount_pos (len := s.inLen.toNat) (bs := bs) (by have := hbs.sixteen_le; omega)
  have hlen : (x ++ [BitVec.ofNat 8 (padCount s.inLen.toNat bs)]).length = padCount s.inLen.toNat bs := by
    rw [List.length_append, hx, List.length_singleton, Nat.sub_add_cancel hpos]
  refine ⟨by rw [h.outLen_padded, hlen], fun k hk => ?_, ?_⟩
  · rw [h.outByte_padding (by omega), List.getD_append _ _ _ _ (by omega)]
  · rw [Nat.add_sub_assoc hpos, h.outByte_padding (by omega), List.getD_append_right _ _ _ _ hx.le, hx, Nat.sub_self,
      List.getD_cons_zero, toNat_ofNat_padCount hbs]

theorem fillerCount_eq (len bs : Nat) (p : Scheme) :
    fillerCount len bs p = if p = .iso10126 then padCount len bs - 1 else 0 := by
  cases p <;> rfl

/-- Settles O45: the input is followed by what each scheme appends, and the frame is that of a result in OUT. -/
theorem padResult : Obligations.PadResult := by
  intro s p bs hbs hmax hfits hnone len n
  obtain ⟨t, hrun, h⟩ := exec_pad hbs hmax hfits hnone
  have hpos : 0 < bs := by have := hbs.sixteen_le; omega
  refine ⟨t, hrun, h.completed, fun i => h.outByte_input, fun hp => ?_, fun hp => ?_, fun hp => ?_, fun hp => ?_,
    fun hp => ?_, by rw [h.rng, fillerCount_eq]; rfl, by rw [h.outLen]; exact h.mem, h.slot, h.schedule, h.lengths, h.shell⟩
  all_goals subst hp
  · have hlen : t.outLen.toNat = len + (bs - len % bs) % bs := h.outLen_padded.trans (by rw [padding, List.length_replicate])
    have hz : (bs - len % bs) % bs < bs := Nat.mod_lt _ hpos
    have hmod : (len + (bs - len % bs) % bs) % bs = 0 := by rw [Nat.add_mod_mod]; exact add_padCount_mod hbs
    rw [hlen]
    exact ⟨Nat.le_add_right _ _, by omega, hmod, fun i hlo hhi => h.outByte_replicate hlo hhi⟩
  · exact BitVec.eq_of_toNat_eq h.outLen_padded
  · refine ⟨h.outLen_padded.trans (by rw [padding, List.length_replicate]; rfl), fun i hlo hhi => ?_⟩
    rw [h.outByte_replicate hlo hhi]
    exact toNat_ofNat_padCount hbs
  · obtain ⟨hlen, hzeros, hlast⟩ := h.counted hbs List.length_replicate
    refine ⟨hlen, fun i hlo hhi => ?_, hlast⟩
    obtain ⟨k, rfl⟩ := Nat.exists_eq_add_of_le hlo
    have hk : k < padCount len bs - 1 := by change k < n - 1; omega
    rw [hzeros k hk, List.getD_replicate _ hk]
  · obtain ⟨hlen, hfill, hlast⟩ := h.counted hbs (by rw [List.length_map, List.length_range])
    refine ⟨hlen, fun k hk => ?_, hlast⟩
    rw [hfill k hk, List.getD_eq_getElem _ _ (by rwa [List.length_map, List.length_range]), List.getElem_map,
      List.getElem_range]
    rfl

/-! ## What unpadBytes keeps (44 R411) -/

/-- Unpadding only truncates (R414). -/
theorem prefix_of_unpadBytes {d u : Bytes} {bs : Nat} {p : Scheme} (hu : unpadBytes d bs p = some u) : u <+: d := by
  have hcounted (h : unpadCounted d = some u) : u <+: d := by
    unfold unpadCounted at h
    split at h
    · cases h
    · split at h
      · cases h
      · cases h; exact List.take_prefix _ _
  cases p with
  | zero => cases hu; exact List.take_prefix _ _
  | none => cases hu; exact List.prefix_rfl
  | pkcs7 | ansix923 | iso10126 => exact hcounted hu

theorem unpadBytes_of_counted {p : Scheme} (hp : p = .pkcs7 ∨ p = .ansix923 ∨ p = .iso10126) (d : Bytes) (bs : Nat) :
    unpadBytes d bs p = unpadCounted d := by
  rcases hp with rfl | rfl | rfl <;> rfl

/-- The counted schemes on IN, by its length and its last byte. -/
theorem unpadCounted_inData (s : State) :
    unpadCounted s.inData =
      if s.inLen.toNat = 0 ∨ s.inLen.toNat < (s.inByte (s.inLen.toNat - 1)).toNat then none
      else some (s.inData.take (s.inLen.toNat - (s.inByte (s.inLen.toNat - 1)).toNat)) := by
  have hlen := s.length_inData
  by_cases hzero : s.inLen.toNat = 0
  · rw [if_pos (.inl hzero), List.length_eq_zero_iff.mp (hlen.trans hzero)]
    rfl
  · have hlast : s.inData.getLast? = some (s.inByte (s.inLen.toNat - 1)) := by
      rw [inByte_eq_getD s (by omega), List.getLast?_eq_getElem?, hlen, List.getElem?_eq_getElem (by omega),
        List.getD_eq_getElem _ _ (by omega)]
    simp only [unpadCounted, hlast, hlen, hzero, false_or]

theorem length_of_unpadCounted {s : State} {u : Bytes} (hu : unpadCounted s.inData = some u) :
    u.length = s.inLen.toNat - (s.inByte (s.inLen.toNat - 1)).toNat := by
  rw [unpadCounted_inData] at hu
  split at hu
  · cases hu
  · cases hu
    rw [List.length_take, State.length_inData, Nat.min_eq_left (Nat.sub_le _ _)]

/-- The run of zeros ends at the limit, at the end of the bytes or before a byte that is not 0. -/
theorem zeroRun_spec (limit : Nat) (d : Bytes) :
    zeroRun limit d ≤ limit ∧ zeroRun limit d ≤ d.length ∧ (∀ i, i < zeroRun limit d → d.getD i 0 = 0) ∧
      (zeroRun limit d = d.length ∨ zeroRun limit d = limit ∨ d.getD (zeroRun limit d) 0 ≠ 0) := by
  induction limit generalizing d with
  | zero => exact ⟨le_rfl, Nat.zero_le _, nofun, .inr (.inl rfl)⟩
  | succ k ih =>
    cases d with
    | nil => exact ⟨Nat.zero_le _, le_rfl, nofun, .inl rfl⟩
    | cons b d =>
      obtain ⟨hlimit, hlen, hzeros, hend⟩ := ih d
      rw [zeroRun]
      split
      · next hb =>
        refine ⟨Nat.succ_le_succ hlimit, Nat.succ_le_succ hlen, fun i hi => ?_, ?_⟩
        · cases i with
          | zero => exact hb
          | succ i => exact hzeros i (Nat.lt_of_succ_lt_succ hi)
        · exact hend.imp (congrArg _) (.imp (congrArg _) id)
      · next hb => exact ⟨Nat.zero_le _, Nat.zero_le _, nofun, .inr (.inr hb)⟩

/-- Zero on IN strips the zeros at its end, at most `bs` and as many as there are (R402). -/
theorem unpadBytes_zero_inData {s : State} {u : Bytes} {bs : Nat} (hu : unpadBytes s.inData bs .zero = some u) :
    u.length ≤ s.inLen.toNat ∧ s.inLen.toNat - u.length ≤ bs ∧
    (∀ i, u.length ≤ i → i < s.inLen.toNat → s.inByte i = 0) ∧
    (u.length = 0 ∨ s.inLen.toNat - u.length = bs ∨ s.inByte (u.length - 1) ≠ 0) := by
  have hrev {i : Nat} (hi : i < s.inLen.toNat) : s.inByte i = s.inData.reverse.getD (s.inLen.toNat - 1 - i) 0 := by
    rw [List.getD_reverse _ (by rw [State.length_inData]; omega), State.length_inData, inByte_eq_getD s hi,
      show s.inLen.toNat - 1 - (s.inLen.toNat - 1 - i) = i by omega]
  obtain ⟨hlimit, hrun, hzeros, hend⟩ := zeroRun_spec bs s.inData.reverse
  cases hu
  rw [List.length_reverse, State.length_inData] at hrun hend
  rw [List.length_take, State.length_inData, Nat.min_eq_left (Nat.sub_le _ _)]
  refine ⟨Nat.sub_le _ _, by omega, fun i hlo hhi => ?_, ?_⟩
  · rw [hrev hhi]
    exact hzeros _ (by omega)
  · rcases hend with hall | hbound | hstop
    · exact .inl (by omega)
    · exact .inr (.inl (by omega))
    · by_cases hempty : s.inLen.toNat - zeroRun bs s.inData.reverse = 0
      · exact .inl hempty
      · refine .inr (.inr ?_)
        rwa [hrev (by omega), show s.inLen.toNat - 1 - (s.inLen.toNat - zeroRun bs s.inData.reverse - 1) =
          zeroRun bs s.inData.reverse by omega]

/-! ## UNPAD past its first three checks (44 R422) -/

section Unpadding

variable {s : State} {p : Scheme} {bs : Nat} (hbs : LegalSize bs) (hfits : s.inLen.toNat ≤ s.inCap)
  (hnone : p = .none → s.inLen.toNat % bs = 0)
include hbs hfits hnone

theorem exec_unpad_of_none (hu : unpadBytes s.inData bs p = none) :
    exec (.unpad p bs) s = .next (s.failed .invalidPadding) := by
  rw [exec, execUnpad, if_neg (not_not_intro hbs), if_neg (Nat.not_lt.mpr hfits), if_neg (fun h => h.2 (hnone h.1)), hu]
  rfl

theorem exec_unpad_of_some {u : Bytes} (hu : unpadBytes s.inData bs p = some u) :
    ∃ t, exec (.unpad p bs) s = .next t ∧ WroteOnlyOut u 0 s t := by
  have hlen := length_unpadBytes_le hu
  rw [State.length_inData] at hlen
  rw [exec, execUnpad, if_neg (not_not_intro hbs), if_neg (Nat.not_lt.mpr hfits), if_neg (fun h => h.2 (hnone h.1)), hu]
  exact ⟨_, rfl, wroteOnlyOut_storeOut s (hlen.trans_lt s.inLen.isLt) 0⟩

end Unpadding

/-- A result that only truncates the input copies its bytes. -/
theorem WroteOnlyOut.outByte_of_prefix {s t : State} {u : Bytes} {n i : Nat} (h : WroteOnlyOut u n s t)
    (hu : u <+: s.inData) (hi : i < u.length) : t.outByte i = s.inByte i := by
  have hlen := hu.length_le
  rw [State.length_inData] at hlen
  obtain ⟨r, hr⟩ := hu
  rw [h.outByte i hi, inByte_eq_getD s (by omega), ← hr, List.getD_append _ _ _ _ hi]

/-- Only a counted scheme rejects its input. -/
theorem exists_unpadBytes {s : State} {p : Scheme} (bs : Nat)
    (h : ¬ ((p = .pkcs7 ∨ p = .ansix923 ∨ p = .iso10126) ∧
      (s.inLen.toNat = 0 ∨ s.inLen.toNat < (s.inByte (s.inLen.toNat - 1)).toNat))) :
    ∃ u, unpadBytes s.inData bs p = some u := by
  by_cases hp : p = .pkcs7 ∨ p = .ansix923 ∨ p = .iso10126
  · rw [unpadBytes_of_counted hp, unpadCounted_inData, if_neg fun hbad => h ⟨hp, hbad⟩]
    exact ⟨_, rfl⟩
  · cases p with
    | zero | none => exact ⟨_, rfl⟩
    | pkcs7 | ansix923 | iso10126 => simp at hp

/-- Settles O46: unpadBytes decides between the failure and the copy of the bytes it keeps. -/
theorem unpadResult : Obligations.UnpadResult := by
  intro s p bs hbs _ hfits hnone len count counted
  refine ⟨fun hp hbad => ?_, fun hgood => ?_⟩
  · have hu : unpadBytes s.inData bs p = none := by rw [unpadBytes_of_counted hp, unpadCounted_inData, if_pos hbad]
    exact ⟨_, exec_unpad_of_none hbs hfits hnone hu, failedWith_failed _ _⟩
  · obtain ⟨u, hu⟩ := exists_unpadBytes bs hgood
    obtain ⟨t, hrun, h⟩ := exec_unpad_of_some hbs hfits hnone hu
    have hzeroLen : u.length = 0 → t.outLen = 0 := fun h0 => BitVec.eq_of_toNat_eq (h.outLen.trans h0)
    refine ⟨t, hrun, h.completed, fun i hi => h.outByte_of_prefix (prefix_of_unpadBytes hu) (h.outLen ▸ hi), fun hp => ?_,
      fun hp => ?_, fun hp => ?_, by rw [h.outLen]; exact h.mem, h.slot, h.schedule, h.lengths, h.shell, h.rng⟩
    · rw [unpadBytes_of_counted hp] at hu
      exact h.outLen.trans (length_of_unpadCounted hu)
    · subst hp
      cases hu
      exact BitVec.eq_of_toNat_eq (h.outLen.trans s.length_inData)
    · subst hp
      obtain ⟨hle, hstrip, hzeros, hend⟩ := unpadBytes_zero_inData hu
      rw [h.outLen]
      exact ⟨hle, hstrip, hzeros, hend.imp_left hzeroLen⟩

end Sys2Proof.Machine

/-! PROOFS. The family 45_control: what NOP, CONSTRUCT and ZEROIZE leave. -/

namespace Sys2Proof.Machine

/-! ## CKEY and the buffers after ZEROIZE and CONSTRUCT (45 R452, R456) -/

/-- No byte is listed, so each reads as the fill. -/
@[simp] theorem Memory.read_zeroed (x : Nat) : Memory.zeroed.read x = 0 := rfl

@[simp] theorem State.ckeyByte_zeroized (s : State) (i : Nat) : s.zeroized.ckeyByte i = 0 := by
  by_cases hi : i < 32 <;> simp [State.ckeyByte, hi]

theorem State.ckeyByte_of_ge (s : State) {i : Nat} (hi : 32 ≤ i) : s.ckeyByte i = 0 := by
  rw [State.ckeyByte, Vector.getElem?_eq_none hi, Option.getD_none]

/-- The latched key is KEY below KLEN and the old CKEY from KLEN up, beyond CKEY's 32 bytes too. -/
theorem State.getD_latchedKey (s : State) {klen : Nat} (hklen : klen ≤ 32) (i : Nat) :
    (s.latchedKey klen)[i]?.getD 0 = if i < klen then s.keyByte i else s.ckeyByte i := by
  by_cases hi : i < 32
  · simp [State.latchedKey, hi]
  · rw [Vector.getElem?_eq_none (by omega), if_neg (by omega), s.ckeyByte_of_ge (by omega), Option.getD_none]

/-! ## The two outcomes of CONSTRUCT (45 R452) -/

theorem exec_construct_of_legalSize (s : State) (md : Mode) (p : Scheme) {klen : Nat} (h : LegalSize klen) :
    exec (.construct md p klen) s = .next ((s.setSlot (s.latchedKey klen) md p klen).clearSchedule.complete .ok) :=
  if_neg (not_not.mpr h)

theorem exec_construct_of_not_legalSize (s : State) (md : Mode) (p : Scheme) {klen : Nat} (h : ¬ LegalSize klen) :
    exec (.construct md p klen) s = .next (s.clearSlot.clearSchedule.failed .invalidKeySize) :=
  if_pos h

/-! ## The control commands -/

/-- Settles O52: NOP's frame is that of its completion; ZEROIZE leaves the zeroed buffers, CKEY and registers. -/
theorem nopAndZeroizeResults : Obligations.NopAndZeroizeResults := by
  intro s
  constructor
  · have hrun : exec .nop s = .next (s.complete .ok) := finish_eq s
    have hc := completion_of_exec hrun
    exact ⟨_, hrun, ⟨rfl, rfl, rfl⟩, fun _ => rfl, hc.slotSame nofun nofun,
      hc.scheduleRegsSame nofun nofun nofun nofun, hc.lengthsSame nofun, hc.shellSame, rfl, rfl⟩
  · have hrun : exec .zeroize s = .next (s.zeroized.complete .ok) := finish_eq s.zeroized
    have hc := completion_of_exec hrun
    exact ⟨_, hrun, ⟨rfl, rfl, rfl⟩, Memory.read_zeroed, s.ckeyByte_zeroized,
      State.cfgWord_of_empty rfl rfl rfl, rfl, rfl, (State.rkInfoWord_eq_zero _).mpr ⟨rfl, rfl⟩, rfl, rfl, rfl,
      hc.shellSame, rfl⟩

/-- Settles O53: LegalSize of KLEN decides between the filled slot and the failure that empties it. -/
theorem constructResults : Obligations.ConstructResults := by
  intro s md p klen
  refine ⟨fun hlegal => ?_, fun hbad => ?_⟩
  · have hrun := exec_construct_of_legalSize s md p hlegal
    have hc := completion_of_exec hrun
    have hkey := s.getD_latchedKey hlegal.le_blockCap
    -- The frame holds for any key; unfolding the latched one makes each field's `rfl` too costly.
    generalize s.latchedKey klen = key at hrun hc hkey
    exact ⟨_, hrun, ⟨rfl, rfl, rfl⟩, fun i hi => (hkey i).trans (if_pos hi), fun i hi => (hkey i).trans (if_neg hi.not_gt),
      rfl, rfl, toNat_ofNat_of_legalSize hlegal, rfl, rfl, (State.rkInfoWord_eq_zero _).mpr ⟨rfl, rfl⟩, fun _ => rfl,
      hc.lengthsSame nofun, hc.shellSame, rfl, rfl⟩
  · have hrun := exec_construct_of_not_legalSize s md p hbad
    have hc := completion_of_exec hrun
    exact ⟨_, hrun, ⟨rfl, rfl, rfl⟩, State.cfgWord_of_empty rfl rfl rfl, rfl, rfl,
      (State.rkInfoWord_eq_zero _).mpr ⟨rfl, rfl⟩, rfl, rfl, fun _ => rfl, hc.lengthsSame nofun, hc.shellSame, rfl⟩

end Sys2Proof.Machine

/-! PROOFS. The family 60_exceptions: issue, the completion step of every word, the order of the checks, what a failure
leaves, and the interrupt line. -/

namespace Sys2Proof.Machine

/-! ## Every command runs its checks in order (60 R509) -/

/-- A command whose last check has passed. -/
theorem finish_eq_checked (u s : State) : finish u = checked [] s (u.complete .ok) := rfl

theorem roundStep_eq_checked (f : Bytes → Bytes) (bs : Nat) (s : State) : roundStep f bs s =
    checked [(badSize bs, .invalidBlockSize)] s ((s.storeState (f (s.stateBytes bs))).complete .ok) :=
  checked_cons (badSize_iff bs) (by decide) (finish_eq_checked _ s)

theorem keyedStep_eq_checked {s : State} {b : Bool} {bs r : Nat} (hb : b = true ↔ s.NoSchedule bs r) (f : Bytes → Bytes) :
    keyedStep f bs r s = checked [(badSize bs, .invalidBlockSize), (b, .noSchedule)] s
      ((s.storeState (f (s.stateBytes bs))).complete .ok) :=
  checked_cons (badSize_iff bs) (by decide) <| checked_cons hb (by decide) (finish_eq_checked _ s)

/-- ENC_BLOCK and DEC_BLOCK read round keys up to RK_NR, which no schedule lacks (42 R311). -/
theorem noSchedule_rkNr_iff (s : State) (bs : Nat) :
    (!s.rkValid || s.rkBs.toNat != bs) = true ↔ s.NoSchedule bs s.rkNr.toNat := by
  simp [State.NoSchedule]

theorem noSchedule_iff (s : State) (bs r : Nat) :
    (!s.rkValid || s.rkBs.toNat != bs || decide (s.rkNr.toNat < r)) = true ↔ s.NoSchedule bs r := by
  simp [State.NoSchedule, or_assoc]

theorem execUnpad_eq_checked (s : State) (p : Scheme) (bs : Nat) : execUnpad p bs s = checked (checksOf s (.unpad p bs)) s
    ((s.storeOut ((unpadBytes s.inData bs p).getD [])).complete .ok) := by
  refine checked_cons (badSize_iff bs) (by decide) <| checked_cons (by simp) (by decide) <|
    checked_cons (by simp) (by decide) ?_
  rw [badPadding]
  cases unpadBytes s.inData bs p with
  | none => exact raise_eq _ s
  | some u => exact finish_eq_checked _ s

/-- Every command ends with the first error of its checks, on `s` or, for CONSTRUCT, on `s` with the slot and the schedule
emptied, or it succeeds. -/
theorem exec_eq_checked (i : Instr) (s : State) :
    ∃ u t, exec i s = checked (checksOf s i) u t ∧ t.errcode = .ok := by
  cases i with
  | nop | zeroize => exact ⟨s, _, finish_eq_checked _ s, rfl⟩
  | construct md p klen => exact ⟨_, _, checked_cons (badSize_iff klen) (by decide) (finish_eq_checked _ _), rfl⟩
  | keyExpand bs =>
    exact ⟨s, _, checked_cons (by simp) (by decide) <| checked_cons (badSize_iff bs) (by decide) (finish_eq_checked _ s), rfl⟩
  | subBytes bs | invSubBytes bs | shiftRows bs | invShiftRows bs | mixColumns bs | invMixColumns bs =>
    exact ⟨s, _, roundStep_eq_checked _ bs s, rfl⟩
  | encBlock bs | decBlock bs => exact ⟨s, _, keyedStep_eq_checked (noSchedule_rkNr_iff s bs) _, rfl⟩
  | addRoundKey bs r => exact ⟨s, _, keyedStep_eq_checked (noSchedule_iff s bs r) fun b => addRoundKey b (s.roundKey bs r), rfl⟩
  | encrypt bs => exact ⟨s, _, exec_encrypt s bs, rfl⟩
  | decrypt bs => exact ⟨s, _, exec_decrypt s bs, rfl⟩
  | pad p bs =>
    exact ⟨s, _, checked_cons (badSize_iff bs) (by decide) <| checked_cons (by simp) (by decide) <|
      checked_cons (by simp) (by decide) (finish_eq_checked _ s), rfl⟩
  | unpad p bs => exact ⟨s, _, execUnpad_eq_checked s p bs, rfl⟩

theorem checked_reports (checks : List (Bool × ErrCode)) (s : State) {t : State} (ht : t.errcode = .ok) :
    ∃ r, checked checks s t = .next r ∧ r.errcode = firstError checks := by
  refine ⟨_, rfl, ?_⟩
  split
  · next hok => rw [ht, hok]
  · rfl

/-- No command stops the block, and its code is that of its first check that fails (60 R509, R511). -/
theorem exec_reports_firstError (i : Instr) (s : State) :
    ∃ t, exec i s = .next t ∧ t.errcode = firstError (checksOf s i) := by
  obtain ⟨u, t, hexec, ht⟩ := exec_eq_checked i s
  rw [hexec]
  exact checked_reports _ u ht

/-! ## What a completion leaves (60 R521, R522) -/

theorem CompletedWith.busy_eq {c : ErrCode} {t : State} (h : CompletedWith c t) : t.busy = false := by
  rw [State.busy, h.seq]

theorem Completion.completedWith {s t : State} {i : Instr} (h : Completion s i t) : CompletedWith t.errcode t := by
  cases h <;> exact ⟨rfl, rfl, rfl⟩

theorem Completion.failedWith {s t : State} {i : Instr} (h : Completion s i t) (herr : t.errcode ≠ .ok)
    (hi : ∀ md p k, i ≠ .construct md p k) : FailedWith t.errcode s t := by
  cases h with
  | failed => exact failedWith_failed _ s
  | constructFailed => exact absurd rfl (hi _ _ _)
  | _ => exact absurd rfl herr

theorem Completion.construct_failed {s t : State} {md : Mode} {p : Scheme} {k : Nat}
    (h : Completion s (.construct md p k) t) (herr : t.errcode ≠ .ok) :
    t = s.clearSlot.clearSchedule.failed .invalidKeySize := by
  cases h with
  | failed hi => exact absurd rfl (hi _ _ _)
  | constructFailed => rfl
  | _ => exact absurd rfl herr

/-- Settles O9: the command answers, and every completion ends with the bookkeeping and leaves rst and the host alone. -/
theorem everyCommandCompletes : Obligations.EveryCommandCompletes := by
  intro i s
  obtain ⟨t, hexec, -⟩ := exec_reports_firstError i s
  have hc := completion_of_exec hexec
  exact ⟨t, hexec, hc.completedWith.busy_eq, hc.completedWith.done, hc.shellSame.rst, hc.shellSame.host⟩

/-! ## The completion step (60 R507, R521) -/

section CompletionStep

variable {s : State} {w : Word} (hrst : s.rst = false) (hseq : s.seq = .executing w 0)
include hrst hseq

theorem step_of_decode_ok {i : Instr} (hdec : decode w = .ok i) : step s = exec i s := by
  simp [step, hrst, hseq, hdec]

theorem step_of_decode_error {e : DecodeError} (hdec : decode w = .error e) :
    step s = .next (s.failed .illegalCommand) := by
  simp [step, hrst, hseq, hdec, raise_eq]

/-- Whatever its word, a command whose LATENCY has run out completes in the next step. -/
theorem step_completes : ∃ t, step s = .next t ∧ CompletedWith t.errcode t := by
  cases hdec : decode w with
  | ok i =>
    obtain ⟨t, hexec, -⟩ := exec_reports_firstError i s
    exact ⟨t, (step_of_decode_ok hrst hseq hdec).trans hexec, (completion_of_exec hexec).completedWith⟩
  | error e => exact ⟨_, step_of_decode_error hrst hseq hdec, (failedWith_failed _ s).completed⟩

end CompletionStep

/-- Settles O54: an illegal word fails at once, and a decoded command runs its checks in order. -/
theorem errorPriority : Obligations.ErrorPriority := by
  intro s w hrst hseq
  cases hdec : decode w with
  | ok i =>
    obtain ⟨t, hexec, hcode⟩ := exec_reports_firstError i s
    refine ⟨t, (step_of_decode_ok hrst hseq hdec).trans hexec, nofun, ?_⟩
    rintro _ ⟨⟩
    exact hcode
  | error e => exact ⟨_, step_of_decode_error hrst hseq hdec, fun _ _ => rfl, nofun⟩

/-- Settles O55: an illegal word and a failing command go through the one failure, CONSTRUCT's with the slot and the schedule
registers emptied before it. -/
theorem failureWritesNothingElse : Obligations.FailureWritesNothingElse := by
  intro s t w hrst hseq hstep herr
  cases hdec : decode w with
  | ok i =>
    rw [step_of_decode_ok hrst hseq hdec] at hstep
    have hc := completion_of_exec hstep
    refine ⟨fun hi => hc.failedWith herr fun md p k h => hi md p k (congrArg _ h), ?_⟩
    rintro md p k ⟨⟩
    have ht := hc.construct_failed herr
    subst ht
    exact ⟨rfl, rfl, fun _ => rfl, rfl, hc.lengthsSame nofun, hc.shellSame⟩
  | error e =>
    rw [step_of_decode_error hrst hseq hdec, next_inj] at hstep
    subst hstep
    exact ⟨fun _ => failedWith_failed _ s, nofun⟩

/-- Settles O5: the completion step of a word that decodes. -/
theorem stepRunsDecodedCommand : Obligations.StepRunsDecodedCommand := fun _ _ _ hrst hseq hdec =>
  step_of_decode_ok hrst hseq hdec

theorem decodeTableWord_eq_some {nbits w : Nat} {i : Instr} :
    decodeTableWord nbits w = some i ↔ decode (tableWord nbits w) = .ok i := by
  rw [decodeTableWord]
  cases decode (tableWord nbits w) <;> simp [Except.toOption]

/-- Settles O6: withFetchWord leaves the word with no LATENCY and rst low, so the next step is its completion. -/
theorem fetchedWordRunsNext : Obligations.FetchedWordRunsNext := by
  intro s nbits w i hdec
  exact ⟨step_of_decode_ok rfl rfl (decodeTableWord_eq_some.mp hdec), fun _ => rfl, ⟨rfl, rfl, rfl, rfl, rfl⟩,
    ⟨rfl, rfl, rfl⟩, ⟨rfl, rfl⟩, rfl, rfl, rfl, rfl, rfl, rfl, rfl, rfl, rfl, rfl, rfl, rfl, rfl, rfl, rfl⟩

/-! ## The LATENCY countdown (60 R521, log 5) -/

/-- While a command runs, a host step takes one event off the list. -/
theorem hostStep_host_of_busy {s : State} (hb : s.busy = true) : (hostStep s).host = s.host.tail := by
  obtain ⟨hhost, heq⟩ | ⟨e, es, hhost, heq⟩ := hostStep_cases s <;> rw [heq, hhost]
  · rfl
  · cases e with
    | access r =>
      obtain ⟨_, _, _, _, _, hacc⟩ := hostAccess_busy_shape (s := { s with host := es }) hb r
      rw [hostEvent, hacc]
      rfl
    | rstRise | rstFall => rfl

/-- With no reset among the host's events, a step with LATENCY left only counts it down. -/
theorem step_counts_down {s : State} {w : Word} {k : Nat} (hrst : s.rst = false) (hseq : s.seq = .executing w (k + 1))
    (hreset : HostEvent.rstRise ∉ s.host) :
    ∃ t, step s = .next t ∧ t.rst = false ∧ t.seq = .executing w k ∧ HostEvent.rstRise ∉ t.host := by
  have hhost := hostStep_host_of_busy (s := { s with seq := .executing w k }) rfl
  have hnext : ∀ es, s.host ≠ .rstRise :: es := fun es h => hreset (h ▸ List.mem_cons_self)
  obtain ⟨_, _, _, _, _, _, heq⟩ := hostStep_busy_shape (s := { s with seq := .executing w k }) rfl hnext
  refine ⟨_, step_countdown hrst hseq, ?_, ?_, fun hmem => hreset (List.mem_of_mem_tail (hhost ▸ hmem))⟩ <;> rw [heq]
  exact hrst

theorem run_succ_of_step (M : Host.Core) {s t : M.State} (h : M.step s = .next t) (k : Nat) :
    M.run (k + 1) s = M.run k t := by
  rw [Host.Core.run, h]

/-- Settles O10, by induction on the LATENCY left. -/
theorem issuedCommandCompletes : Obligations.IssuedCommandCompletes := by
  intro s w k
  induction k generalizing s with
  | zero =>
    intro hrst hseq _
    obtain ⟨t, hstep, hc⟩ := step_completes hrst hseq
    exact ⟨t, run_succ_of_step core hstep 0, hc.busy_eq, hc.done⟩
  | succ k ih =>
    intro hrst hseq hreset
    obtain ⟨u, hstep, hrst', hseq', hreset'⟩ := step_counts_down hrst hseq hreset
    rw [run_succ_of_step core hstep]
    exact ih u hrst' hseq' hreset'

/-! ## Issue and the interrupt line (60 R520, R530) -/

theorem writeEffect_cmd {s : State} (hb : s.busy = false) (n : Nat) (v : Word) : writeEffect s 0x000 n v = s.issue v := by
  simp [writeEffect, hb]

/-- Settles O8: the write's effect at CMD is the issue while idle, and OVR while busy. -/
theorem cmdWriteIssues : Obligations.CmdWriteIssues := by
  rintro s ⟨_, _, _, v⟩ ⟨⟩ ⟨⟩ ⟨⟩
  refine ⟨fun hb => ?_, fun hb => ?_⟩
  · rw [hostAccess_writeRegister (by decide) (writeEffect_cmd hb 4 v)]
    exact ⟨_, rfl, ⟨_, rfl⟩, rfl, rfl, rfl, rfl, rfl, fun _ => rfl, ⟨rfl, rfl, rfl, rfl, rfl⟩, ⟨rfl, rfl, rfl⟩, ⟨rfl, rfl⟩,
      rfl, rfl, rfl, rfl, rfl, rfl, rfl⟩
  · exact hostAccess_writeRegister (by decide) (writeEffect_busy hb (by decide) (by decide) v)

theorem State.irq_eq_false_of_done {s : State} (h : s.done = false) : s.irq = false := by rw [State.irq, h, Bool.false_and]

theorem State.irq_eq_false_of_ie {s : State} (h : s.ie = false) : s.irq = false := by rw [State.irq, h, Bool.and_false]

theorem State.irq_of_completedWith {c : ErrCode} {t : State} (h : CompletedWith c t) : t.irq = t.ie := by
  rw [State.irq, h.done, Bool.true_and]

/-- Settles O25: a completion sets DONE, and each of the three writes clears DONE or IE. -/
theorem interruptLine : Obligations.InterruptLine := by
  refine ⟨rfl, fun s => ⟨Bool.and_eq_true_iff, fun i t hexec => ?_, fun v hv => ?_, fun v hv => ?_, fun v hb => ?_, rfl⟩⟩
  · have hc := completion_of_exec hexec
    exact (State.irq_of_completedWith hc.completedWith).trans hc.shellSame.ie
  · rw [hostAccess_writeRegister (by decide) (writeEffect_status s 4 v)]
    exact State.irq_eq_false_of_done (by simp [hv])
  · rw [hostAccess_writeRegister (by decide) (writeEffect_ctrl s 4 v)]
    exact State.irq_eq_false_of_ie hv
  · rw [hostAccess_writeRegister (by decide) (writeEffect_cmd hb 4 v)]
    exact State.irq_eq_false_of_done rfl

end Sys2Proof.Machine

/-! PROOFS. The family 70_reset_and_hazards: the step that takes a rise of rst, and the steps while rst = 1. -/

namespace Sys2Proof.Machine

/-! ## The rise of rst (70 R550, R553, 10_state R80) -/

/-- CKEY drawn at a reset reads as its draws. -/
theorem State.ckeyByte_of_drawnKey {s : State} {n i : Nat} (h : s.ckey = drawnKey n) (hi : i < 32) :
    s.ckeyByte i = Config.resetKeyByte n i := by
  simp [State.ckeyByte, h, drawnKey, hi]

theorem State.ctrlWord_of_ie {s : State} (h : s.ie = false) : s.ctrlWord = 0 := by
  rw [State.ctrlWord, h]; rfl

/-- A rise of rst resets the block, idle or with LATENCY left: the reset reads nothing of the sequencer, so the command in
flight is lost (R553). -/
theorem step_rstRise {s : State} {es : List HostEvent} (hrst : s.rst = false) (hhost : s.host = .rstRise :: es)
    (hseq : s.seq = .idle ∨ ∃ w k, s.seq = .executing w (k + 1)) :
    step s = .next { s with host := es }.resetNow := by
  obtain hidle | ⟨w, k, hexec⟩ := hseq
  · rw [step_idle hrst hidle, hostStep_of_cons hhost, hostEvent]
  · rw [step_countdown hrst hexec, hostStep_of_cons (s := { s with seq := .executing w k }) hhost]
    rfl

/-! ## While rst = 1 (70 R550, log 7) -/

theorem step_of_rst {s : State} (h : s.rst = true) : step s = heldInReset s := if_pos h

/-- Settles O27: the rise leaves the reset values, whose words are 0 and whose bytes are the new draws; held in reset, each
kind of host event has its one answer. -/
theorem resetEvent : Obligations.ResetEvent := by
  refine ⟨fun s es hrst hhost hseq => ?_, fun s hrst => ?_⟩
  · exact ⟨_, step_rstRise hrst hhost hseq, rfl, rfl, rfl, State.statusWord_of_clear rfl rfl rfl rfl rfl rfl, rfl,
      State.cfgWord_of_empty rfl rfl rfl, State.ctrlWord_of_ie rfl, rfl, rfl, rfl, (State.rkInfoWord_eq_zero _).mpr ⟨rfl, rfl⟩,
      State.irq_eq_false_of_done rfl, rfl, fun _ => rfl, fun _ => State.ckeyByte_of_drawnKey rfl⟩
  · rw [step_of_rst hrst]
    exact ⟨fun hhost => by rw [heldInReset, hhost], fun es hhost => by rw [heldInReset, hhost],
      fun es hhost => by rw [heldInReset, hhost], fun r es hhost => by rw [heldInReset, hhost]⟩

end Sys2Proof.Machine
